-- ==== Sys2Proof/Word.lean ====
section
/-! DEFINITION. The words of CFD128: its register widths (spec/00_scope.md R7, R8). -/

namespace Sys2Proof

/-- An 8-bit character code of the digit buffer (spec/00_scope.md R13), an immediate, an opcode or a register number. -/
abbrev Byte := BitVec 8

/-- A 32-bit register or command word. -/
abbrev Word32 := BitVec 32

/-- A 64-bit register or the data word of a host access (spec/20_memory.md R41). -/
abbrev Word64 := BitVec 64

/-- A U128 value: a natural number below 2^128 (spec/40_u128.md R73). -/
abbrev U128 := BitVec 128

end Sys2Proof
end

