-- ==== Sys2Proof/Config.lean ====
section
/-! DEFINITION. The implementation parameters of spec/00_scope.md R7 and the free values of the model.
A free value is an opaque constant applied to the number of the instance and the number of draws it made so far:
nothing can evaluate it, so a statement that holds, holds for every value of it, and no two instances or draws are known
to agree (spec/00_scope.md R11, D32; spec/60_exceptions.md R158; notes/assumptions/3.md). -/

namespace Sys2Proof.Config

/-- `P_SHIFT_MIN` (R7). -/
def shiftMin : Int := -64

/-- `P_SHIFT_MAX` (R7). -/
def shiftMax : Int := 64

/-- `P_P_MAX`, the largest DIVP2 power (R7, D8). -/
def powerMax : Nat := 127

/-- `P_POS_MAX`, the largest BITAT position (R7). -/
def posMax : Nat := 127

/-- `P_FC_MAX`, the largest accepted fractional count (R7). -/
def fcMax : Nat := 20

/-- `P_EXP_MAX`, the largest accepted binary exponent (R7, U28). -/
def expMax : Int := 20

/-- `P_BUF_CAP`, the capacity of the digit buffer in bytes (R7, D20). -/
abbrev bufCap : Nat := 42

/-- UNSPECIFIED value of `A`, by instance and draw (R145, R167). DESIGN CHOICE, notes/assumptions/3.md. -/
opaque freeA : Nat → Nat → U128

/-- UNSPECIFIED value of `Q`, by instance and draw (R145, R167). DESIGN CHOICE, notes/assumptions/3.md. -/
opaque freeQ : Nat → Nat → Word32

/-- UNSPECIFIED value of `LEN`, by instance and draw (R145, R167). DESIGN CHOICE, notes/assumptions/3.md. -/
opaque freeLen : Nat → Nat → Word32

/-- UNSPECIFIED value of `DP`, by instance and draw (R145, R167). DESIGN CHOICE, notes/assumptions/3.md. -/
opaque freeDp : Nat → Nat → Word32

/-- UNSPECIFIED value of STATUS.Z, by instance and draw (R167). DESIGN CHOICE, notes/assumptions/3.md. -/
opaque freeZ : Nat → Nat → Bool

/-- UNSPECIFIED value of STATUS.BIT, by instance and draw (R167). DESIGN CHOICE, notes/assumptions/3.md. -/
opaque freeBit : Nat → Nat → Bool

/-- UNSPECIFIED value of STATUS.OK, by instance and draw (R145, R167). DESIGN CHOICE, notes/assumptions/3.md. -/
opaque freeOk : Nat → Nat → Bool

/-- UNSPECIFIED value of `BUF[i]`, by instance, draw and index (R112, R145, R167). DESIGN CHOICE, notes/assumptions/3.md. -/
opaque freeByte : Nat → Nat → Nat → Byte

/-- UNSPECIFIED data word of a read of an unmapped register number, by instance and draw (R43). DESIGN CHOICE,
notes/assumptions/8.md. -/
opaque freeData : Nat → Nat → Word64

end Sys2Proof.Config
end

