-- ==== Sys2Proof/Machine/Arith.lean ====
section
/-! DEFINITION. The pure U128 functions of spec/40_u128.md: `mul128`, `shift128`, `divmodp2`, `bitat`, `iszero`. -/

namespace Sys2Proof.Machine

/-- `mul128(a, m)` (R75): the exact product cut to 128 bits, and whether it is 2^128 or more. -/
def mul128 (a : U128) (m : Word64) : U128 × Bool :=
  let p := a.toNat * m.toNat
  (BitVec.ofNat 128 p, decide (2 ^ 128 ≤ p))

/-- `shift128(a, k)` (R79): logical, right by `k` for `k ≥ 0`, left by `−k` otherwise; bits shifted out are lost. -/
def shift128 (a : U128) (k : Int) : U128 :=
  if 0 ≤ k then a >>> k.toNat else a <<< (-k).toNat

/-- `divmodp2(a, p)` (R82): the quotient cut to 32 bits, the remainder, and whether the quotient is 2^32 or more. -/
def divmodp2 (a : U128) (p : Nat) : Word32 × U128 × Bool :=
  let qf := a.toNat / 2 ^ p
  (BitVec.ofNat 32 qf, BitVec.ofNat 128 (a.toNat % 2 ^ p), decide (2 ^ 32 ≤ qf))

/-- `bitat(a, pos)` (R85). -/
def bitat (a : U128) (pos : Nat) : Bool := a.getLsbD pos

/-- `iszero(a)` (R87). -/
def iszero (a : U128) : Bool := a == 0#128

/-- `hi = a[127:64]` (R73). -/
def hi64 (a : U128) : Nat := a.toNat / 2 ^ 64

/-- `lo = a[63:0]` (R73). -/
def lo64 (a : U128) : Nat := a.toNat % 2 ^ 64

/-- The school multiplication of R76, whose accumulator is 64 bits wide: it gives the result of `mul128` for
`m < 2^32`. Informative; no command uses it. -/
def schoolMul (a : U128) (m : Word64) : U128 × Bool :=
  let t (x : Nat) : Nat := x % 2 ^ 64
  let limb (i : Nat) : Nat := a.toNat / 2 ^ (32 * i) % 2 ^ 32
  let acc0 := t (limb 0 * m.toNat)
  let acc1 := t (acc0 / 2 ^ 32 + limb 1 * m.toNat)
  let acc2 := t (acc1 / 2 ^ 32 + limb 2 * m.toNat)
  let acc3 := t (acc2 / 2 ^ 32 + limb 3 * m.toNat)
  let lo := acc1 % 2 ^ 32 * 2 ^ 32 + acc0 % 2 ^ 32
  let hi := acc3 % 2 ^ 32 * 2 ^ 32 + acc2 % 2 ^ 32
  (BitVec.ofNat 128 (hi * 2 ^ 64 + lo), decide (acc3 / 2 ^ 32 ≠ 0))

/-- The half-wise shift of R80, one case per row of its table. Informative; no command uses it. -/
def halfwiseShift (a : U128) (k : Int) : U128 :=
  let hi := hi64 a
  let lo := lo64 a
  let join (h l : Nat) : U128 := BitVec.ofNat 128 (h * 2 ^ 64 + l)
  if k = 0 then join hi lo
  else if k = 64 then join 0 hi
  else if k = -64 then join lo 0
  else if 0 < k then
    let n := k.toNat
    join (hi / 2 ^ n) (lo / 2 ^ n + hi * 2 ^ (64 - n) % 2 ^ 64)
  else
    let n := (-k).toNat
    join (hi * 2 ^ n % 2 ^ 64 + lo / 2 ^ (64 - n)) (lo * 2 ^ n % 2 ^ 64)

/-- The split form of `divmodp2` of R83: the full quotient and the remainder. Informative; no command uses it. -/
def splitDivmod (a : U128) (p : Nat) : Nat × Nat :=
  let hi := hi64 a
  let lo := lo64 a
  if 64 ≤ p then (hi / 2 ^ (p - 64), hi % 2 ^ (p - 64) * 2 ^ 64 + lo)
  else (lo / 2 ^ p + hi * 2 ^ (64 - p), lo % 2 ^ p)

end Sys2Proof.Machine
end

