-- ==== Sys2Proof/Machine/Digits.lean ====
section
/-! DEFINITION. The stages of the DTOA pipeline below the regimes (spec/42_digit_stages.md): digit emitters,
fractional loops, round-up and trim. `none` is a failed internal check (spec/41_fixed_dtoa.md R113).
The working buffer is held as the bytes `wbuf[0 .. wlen)`: no stage reads a byte at `wlen` or above before it writes it
(R101), so nothing else of `wbuf` reaches a result (DEDUCED, notes/assumptions/11.md). -/

namespace Sys2Proof.Machine

/-- The working state (R121): `digits` is `wbuf[0 .. wlen)`, so `wlen` is its length; `dp` is `wdp`. -/
structure Work where
  digits : List Byte
  dp : Int
deriving DecidableEq, Repr

/-- `CH(d)`, the character of a decimal digit (spec/00_scope.md R13). `CH(10)` is the post-'9' character. -/
def ch (d : Nat) : Byte := BitVec.ofNat 8 (0x30 + d)

/-- Write bytes at `wbuf[wlen ..]` and advance `wlen`; every index written must be below `P_BUF_CAP` (R121). -/
def Work.append (ds : List Byte) (w : Work) : Option Work :=
  if w.digits.length + ds.length ≤ Config.bufCap then some { w with digits := w.digits ++ ds } else none

/-- The loop of FillDigits32: the characters of `n`, least significant first, until `n` is 0 (R122). The first argument
bounds the number of digits. -/
def variableDigits : Nat → Nat → List Byte
  | 0, _ => []
  | k + 1, n => if n = 0 then [] else ch (n % 10) :: variableDigits k (n / 10)

/-- The loop of FillDigits32FixedLength: `width` characters of `n`, least significant first (R123). -/
def fixedDigits : Nat → Nat → List Byte
  | 0, _ => []
  | k + 1, n => ch (n % 10) :: fixedDigits k (n / 10)

/-- `FillDigits32(n)` (R122); a number below 2^32 has at most 10 digits. -/
def fillDigits32 (n : Nat) (w : Work) : Option Work :=
  if n < 2 ^ 32 then w.append (variableDigits 10 n).reverse else none

/-- `FillDigits32FixedLength(n, width)` (R123). -/
def fillDigits32FixedLength (n width : Nat) (w : Work) : Option Work :=
  if n < 10 ^ width then w.append (fixedDigits width n).reverse else none

/-- `FillDigits64FixedLength(n)` (R124). -/
def fillDigits64FixedLength (n : Nat) (w : Work) : Option Work :=
  if n < 10 ^ 17 then
    let part2 := n % 10 ^ 7
    let part1 := n / 10 ^ 7 % 10 ^ 7
    let part0 := n / 10 ^ 7 / 10 ^ 7
    ((fillDigits32FixedLength part0 3 w).bind (fillDigits32FixedLength part1 7)).bind
      (fillDigits32FixedLength part2 7)
  else none

/-- `FillDigits64(n)` (R125). -/
def fillDigits64 (n : Nat) (w : Work) : Option Work :=
  let part2 := n % 10 ^ 7
  let part1 := n / 10 ^ 7 % 10 ^ 7
  let part0 := n / 10 ^ 7 / 10 ^ 7
  if part0 ≠ 0 then
    ((fillDigits32 part0 w).bind (fillDigits32FixedLength part1 7)).bind (fillDigits32FixedLength part2 7)
  else if part1 ≠ 0 then
    (fillDigits32 part1 w).bind (fillDigits32FixedLength part2 7)
  else fillDigits32 part2 w

/-- The cascade of RoundUp on the digits read from the last to the first (R132): add 1 to the first byte of the list,
and carry on while it becomes the post-'9' character. The flag says that the byte at index 0 became it, and was reset
to '1'. -/
def carryUp : List Byte → List Byte × Bool
  | [] => ([], false)
  | [d] => if d + 1 = ch 10 then ([ch 1], true) else ([d + 1], false)
  | d :: e :: ds =>
    if d + 1 = ch 10 then
      let (rest, top) := carryUp (e :: ds)
      (ch 0 :: rest, top)
    else ((d + 1) :: e :: ds, false)

/-- `RoundUp()` (R132). -/
def roundUp (w : Work) : Work :=
  if w.digits = [] then { digits := [ch 1], dp := 1 }
  else
    let (ds, top) := carryUp w.digits.reverse
    { digits := ds.reverse, dp := if top then w.dp + 1 else w.dp }

/-- The loop of FillFractionals64 (R127), from the number of digits still wanted, `frac` and `point`. `point` is a
natural number: it cannot be 0 while `frac ≠ 0` (R128), and a loop that found it so would fail the check
(notes/assumptions/12.md). -/
def fractionLoop64 : Nat → Nat → Nat → Work → Option (Nat × Nat × Work)
  | 0, frac, point, w => some (frac, point, w)
  | i + 1, frac, point, w =>
    if frac = 0 then some (frac, point, w)
    else
      match point with
      | 0 => none
      | p + 1 =>
        if 5 * frac < 2 ^ 64 then
          let digit := 5 * frac / 2 ^ p
          if digit ≤ 9 then
            (w.append [ch digit]).bind (fractionLoop64 i (5 * frac - digit * 2 ^ p) p)
          else none
        else none

/-- `FillFractionals64(frac, e, fc)` (R127). -/
def fillFractionals64 (frac : Nat) (e : Int) (fc : Nat) (w : Work) : Option Work :=
  if frac < 2 ^ 56 then
    match fractionLoop64 fc frac (-e).toNat w with
    | none => none
    | some (rest, point, w') =>
      if rest = 0 then some w'
      else
        match point with
        | 0 => none
        | p + 1 => some (if rest.testBit p then roundUp w' else w')
  else none

/-- The loop of FillFractionals128 (R129), from the number of digits still wanted, `x` and `point`. -/
def fractionLoop128 : Nat → U128 → Nat → Work → Option (U128 × Nat × Work)
  | 0, x, point, w => some (x, point, w)
  | i + 1, x, point, w =>
    if iszero x then some (x, point, w)
    else
      match point with
      | 0 => none
      | p + 1 =>
        let (y, ovf) := mul128 x 5#64
        if ovf then none
        else
          let (digit, r, qovf) := divmodp2 y p
          if qovf then none
          else if digit.toNat ≤ 9 then (w.append [ch digit.toNat]).bind (fractionLoop128 i r p)
          else none

/-- `FillFractionals128(frac, e, fc)` (R129): the pure U128 functions on a private value, not on register `A`. -/
def fillFractionals128 (frac : Nat) (e : Int) (fc : Nat) (w : Work) : Option Work :=
  let k := -e - 64
  if -64 ≤ k ∧ k ≤ 64 then
    match fractionLoop128 fc (shift128 (BitVec.ofNat 128 (frac * 2 ^ 64)) k) 128 w with
    | none => none
    | some (x, point, w') =>
      if 1 ≤ point ∧ point ≤ 128 then some (if bitat x (point - 1) then roundUp w' else w')
      else none
  else none

/-- `FillFractionals(frac, e, fc)` (R126). -/
def fillFractionals (frac : Nat) (e : Int) (fc : Nat) (w : Work) : Option Work :=
  if -128 ≤ e ∧ e ≤ 0 ∧ frac < 2 ^ (-e).toNat then
    if -e ≤ 64 then fillFractionals64 frac e fc w else fillFractionals128 frac e fc w
  else none

/-- The first loop of TrimZeros: drop the trailing '0' characters (R134). -/
def dropTrailingZeros (ds : List Byte) : List Byte := (ds.reverse.dropWhile (· == ch 0)).reverse

/-- The number of leading '0' characters, `z` of TrimZeros (R134). -/
def leadingZeros (ds : List Byte) : Nat := (ds.takeWhile (· == ch 0)).length

/-- `TrimZeros()` (R134): trailing zeros first, then leading zeros, which also move the decimal point. -/
def trimZeros (w : Work) : Work :=
  let kept := dropTrailingZeros w.digits
  let z := leadingZeros kept
  { digits := kept.drop z, dp := w.dp - (z : Int) }

/-- The other order, leading zeros first, of which R135 speaks. Informative; the pipeline does not use it. -/
def trimZerosLeadingFirst (w : Work) : Work :=
  let z := leadingZeros w.digits
  { digits := dropTrailingZeros (w.digits.drop z), dp := w.dp - (z : Int) }

end Sys2Proof.Machine
end

