-- ==== Sys2Proof/Syntax.lean ====
section
/-! DEFINITION. The commands of CFD128: one constructor per row of spec/opcode_table.json (spec/30_encoding.md R60). -/

namespace Sys2Proof

/-- A decoded command (R60) with its assembled operand (R59). -/
inductive Instr where
  /-- NOP (spec/40_u128.md R77). -/
  | nop
  /-- MUL, the source's `times(m)` (R78). -/
  | mul
  /-- SHF k, the source's `shift(k)`: right for positive `k`, left for negative `k` (R81). -/
  | shf (k : Int)
  /-- DIVP2 p, the source's `divModPowerOf2(p)` (R84). -/
  | divp2 (p : Nat)
  /-- BITAT pos, the source's `bitAt(pos)` (R86). -/
  | bitat (pos : Nat)
  /-- ISZ, the source's `isZero()` (R88). -/
  | isz
  /-- DTOA fc, the source's `fastFixedDtoa` (spec/41_fixed_dtoa.md R96). -/
  | dtoa (fc : Nat)
deriving DecidableEq, Repr

end Sys2Proof
end

