-- ==== Sys2Proof/Machine/State.lean ====
section
/-! DEFINITION. The state of CFD128 as plain data (spec/10_state.md), the reasons a step can stop, and the state after
reset (R36). -/

namespace Sys2Proof.Machine

/-- The causes of a fault (spec/60_exceptions.md R142). NONE is the absence of a cause, and the reserved codes 0xB..0xF
are never recorded, so neither is a constructor. -/
inductive Cause where
  /-- 0x1: the product of MUL is 2^128 or more. -/
  | mulOvf
  /-- 0x2: the amount of SHF is outside −64..64. -/
  | shiftRange
  /-- 0x3: the quotient of DIVP2 is 2^32 or more. -/
  | divQovf
  /-- 0x4: the power of DIVP2 is above 127. -/
  | divRange
  /-- 0x5: the position of BITAT is above 127. -/
  | bitRange
  /-- 0x6: a word written to CMD is no command. -/
  | illegalCmd
  /-- 0x7: a host write while BUSY = 1. -/
  | busyViolation
  /-- 0x8: a write to a read-only register, or an access of an unmapped register number. -/
  | badAccess
  /-- 0x9: the input of DTOA is negative or not finite. -/
  | dtoaInput
  /-- 0xA: an internal contract check of DTOA fails. -/
  | dtoaInternal
deriving DecidableEq, Repr

/-- The host's registers by name (spec/20_memory.md R40). -/
inductive Reg where
  | aLo
  | aHi
  | m
  | v
  | q
  | len
  | dp
  | status
  | cmd
  | buf (i : Fin 42)
deriving DecidableEq, Repr

/-- What the host or the platform does next: one entry of the machine's input (notes/assumptions/1.md). -/
inductive Input where
  /-- `HostRead(r)` (spec/20_memory.md R43). -/
  | read (r : Byte)
  /-- `HostWrite(r, d)` (R44). `latency` is the unit's P_LATENCY for the command this write starts, should it start one
  (spec/00_scope.md R7; notes/assumptions/2.md); any other write ignores it. -/
  | write (r : Byte) (d : Word64) (latency : Nat)
  /-- The host's WAIT: read STATUS until BUSY = 0 (spec/30_encoding.md R68). -/
  | wait
  /-- The platform asserts reset (spec/70_reset_and_hazards.md R161). -/
  | reset
  /-- An access by a host other than the instance's one host (spec/20_memory.md R56; notes/assumptions/13.md). -/
  | secondHost
deriving DecidableEq, Repr

/-- The command in progress (spec/30_encoding.md R65). -/
structure InFlight where
  /-- The command, as decoded at acceptance (R64). -/
  cmd : Instr
  /-- How many more host accesses find the unit busy. -/
  left : Nat
deriving DecidableEq, Repr

/-- The state of one instance of CFD128. -/
structure State where
  /-- The accumulator `A` (R18). -/
  a : U128
  /-- The multiplicand `M` (R20). -/
  m : Word64
  /-- The binary64 input `V` (R21). -/
  v : Word64
  /-- The quotient `Q` (R22). -/
  q : Word32
  /-- The length `LEN` (R23). -/
  len : Word32
  /-- The decimal-point position `DP`, two's complement (R24). -/
  dp : Word32
  /-- The digit buffer `BUF` (R27). -/
  buf : Vector Byte 42
  /-- STATUS.Z (R29). -/
  z : Bool
  /-- STATUS.BIT (R30). -/
  bit : Bool
  /-- STATUS.OK (R31). -/
  ok : Bool
  /-- STATUS.FAULT and STATUS.CAUSE (R33): `none` is FAULT = 0 with CAUSE = 0, `some c` is FAULT = 1 with CAUSE = c. -/
  fault : Option Cause
  /-- The command in progress, if any. STATUS.BUSY (R32) is 1 exactly when there is one. -/
  inFlight : Option InFlight
  /-- The model's own: what the host and the platform do next (notes/assumptions/1.md). -/
  inputs : List Input
  /-- The model's own: the data word that the access just made returned to the host, if it was a read. -/
  readData : Option Word64
  /-- The model's own: how many UNSPECIFIED draws were made so far (notes/assumptions/3.md). -/
  draws : Nat
  /-- The model's own: which instance of a system this is. No access reads it (spec/60_exceptions.md R158: instances
  "have no identifier register"); it only picks the instance's own free values (notes/assumptions/14.md). -/
  unitNo : Nat
deriving DecidableEq, Repr

/-- The reasons the machine could stop with a fault: there is none. A fault of CFD128 is recorded in STATUS and the
unit goes on (spec/60_exceptions.md R143, R151), so taking one is a next state (notes/assumptions/18.md). -/
inductive Fault where
deriving DecidableEq, Repr

/-- The reasons a step has no meaning. -/
inductive Refusal where
  /-- Raised by `exec` for a command that has no meaning yet; no arm raises it. Safe: it claims nothing. -/
  | notModelled (mnemonic : String)
  /-- Raised by `step` when a second host accesses the instance: "a model refuses such a system"
  (spec/20_memory.md R56, U23). Safe: nothing is claimed of what follows. -/
  | secondHost
deriving DecidableEq, Repr

/-- The state after reset (R36; spec/70_reset_and_hazards.md R162). The last four fields are the model's own and their
values a DESIGN CHOICE (notes/assumptions/4.md). -/
def State.reset : State where
  a := 0
  m := 0
  v := 0
  q := 0
  len := 0
  dp := 0
  buf := Vector.replicate 42 0
  z := false
  bit := false
  ok := false
  fault := none
  inFlight := none
  inputs := []
  readData := none
  draws := 0
  unitNo := 0

end Sys2Proof.Machine
end

