-- ==== Sys2Proof/Machine/Flags.lean ====
section
/-! DEFINITION. The STATUS register: its fields, its reserved bits and the cause codes (spec/10_state.md R25;
spec/60_exceptions.md R142). -/

namespace Sys2Proof.Machine

/-- The code of a cause in STATUS.CAUSE (R142). -/
def Cause.code : Cause → BitVec 4
  | .mulOvf => 0x1#4
  | .shiftRange => 0x2#4
  | .divQovf => 0x3#4
  | .divRange => 0x4#4
  | .bitRange => 0x5#4
  | .illegalCmd => 0x6#4
  | .busyViolation => 0x7#4
  | .badAccess => 0x8#4
  | .dtoaInput => 0x9#4
  | .dtoaInternal => 0xA#4

/-- STATUS.BUSY: 1 from the acceptance of a command until its completion (R32). -/
def State.busy (s : State) : Bool := s.inFlight.isSome

/-- STATUS.FAULT: 1 once a fault has been recorded (R33). -/
def State.faulted (s : State) : Bool := s.fault.isSome

/-- STATUS.CAUSE: the code of the first fault, 0 when FAULT = 0 (R25). -/
def State.causeField (s : State) : BitVec 4 :=
  match s.fault with
  | none => 0x0#4
  | some c => c.code

/-- The 32-bit STATUS register (R25): CAUSE in bits 11:8, OK, BIT, Z, FAULT and BUSY in bits 4 to 0, and the reserved
bits 31:12 and 7:5 hard-wired to 0. -/
def State.statusWord (s : State) : Word32 :=
  ((0#20 ++ s.causeField) ++ 0#3) ++
    (BitVec.ofBool s.ok ++ BitVec.ofBool s.bit ++ BitVec.ofBool s.z ++ BitVec.ofBool s.faulted ++ BitVec.ofBool s.busy)

end Sys2Proof.Machine
end

