-- ==== Sys2Proof/Machine/Operands.lean ====
section
/-! DEFINITION. Operands: the register map (spec/20_memory.md R40), the legal ranges of the immediates
(spec/30_encoding.md R59), the fields of a binary64 pattern (spec/00_scope.md R14) and the write set of each command
(spec/10_state.md R35). -/

namespace Sys2Proof.Machine

/-- The register number of CMD (R40). -/
def cmdNumber : Byte := 0x08#8

/-- The register number of STATUS (R40). -/
def statusNumber : Byte := 0x07#8

/-- The register a number names, none where it is unmapped (R40, R50). -/
def Reg.ofNumber (r : Byte) : Option Reg :=
  if r = 0x00#8 then some .aLo
  else if r = 0x01#8 then some .aHi
  else if r = 0x02#8 then some .m
  else if r = 0x03#8 then some .v
  else if r = 0x04#8 then some .q
  else if r = 0x05#8 then some .len
  else if r = 0x06#8 then some .dp
  else if r = 0x07#8 then some .status
  else if r = 0x08#8 then some .cmd
  else if h : 0x40 ≤ r.toNat ∧ r.toNat - 0x40 < 42 then some (.buf ⟨r.toNat - 0x40, h.2⟩)
  else none

/-- The number of a register (R40). -/
def Reg.number : Reg → Byte
  | .aLo => 0x00#8
  | .aHi => 0x01#8
  | .m => 0x02#8
  | .v => 0x03#8
  | .q => 0x04#8
  | .len => 0x05#8
  | .dp => 0x06#8
  | .status => 0x07#8
  | .cmd => 0x08#8
  | .buf i => BitVec.ofNat 8 (0x40 + i.val)

/-- The legal shift amounts of SHF: −64..64 (R59, R81). -/
def shiftLegal (k : Int) : Bool := decide (Config.shiftMin ≤ k) && decide (k ≤ Config.shiftMax)

/-- The legal powers of DIVP2: 0..127 (R59, R84). -/
def powerLegal (p : Nat) : Bool := decide (p ≤ Config.powerMax)

/-- The legal positions of BITAT: 0..127 (R59, R86). -/
def posLegal (pos : Nat) : Bool := decide (pos ≤ Config.posMax)

/-- The sign of a binary64 pattern, `V[63]` (R14). -/
def signField (v : Word64) : Bool := v.getLsbD 63

/-- The biased exponent field `V[62:52]` (R14). -/
def exponentField (v : Word64) : Nat := (v.extractLsb' 52 11).toNat

/-- The stored fraction `V[51:0]` (R14). -/
def fractionField (v : Word64) : Nat := (v.extractLsb' 0 52).toNat

/-- A set of the state that commands write. -/
structure WriteSet where
  a : Bool := false
  q : Bool := false
  z : Bool := false
  bit : Bool := false
  ok : Bool := false
  /-- LEN, DP and BUF, which only DTOA writes. -/
  result : Bool := false
deriving DecidableEq, Repr

/-- `W(cmd)`: the state a command writes, the W entries of its row in R35. -/
def writeSet : Instr → WriteSet
  | .nop => {}
  | .mul => { a := true }
  | .shf _ => { a := true }
  | .divp2 _ => { a := true, q := true }
  | .bitat _ => { bit := true }
  | .isz => { z := true }
  | .dtoa _ => { ok := true, result := true }

/-- A read of the register returns state of the set; the STATUS fields Z, BIT and OK count separately (R43, R167). -/
def Reg.namesStateOf : Reg → WriteSet → Bool
  | .aLo, w => w.a
  | .aHi, w => w.a
  | .m, _ => false
  | .v, _ => false
  | .q, w => w.q
  | .len, w => w.result
  | .dp, w => w.result
  | .status, w => w.z || w.bit || w.ok
  | .cmd, _ => false
  | .buf _, w => w.result

end Sys2Proof.Machine
end

