-- ==== Sys2Proof/Machine/Ops.lean ====
section
/-! DEFINITION. The named operations over the registers: updates, recording a fault, completing a command, UNSPECIFIED
values, the host's view of a register, and reset. -/

namespace Sys2Proof.Machine

/-- `A <- x`. -/
def State.setA (x : U128) (s : State) : State := { s with a := x }

/-- The write of `A_LO`: `A <- (A[127:64], d)` (spec/10_state.md R19, spec/20_memory.md R44). -/
def State.setALo (d : Word64) (s : State) : State := { s with a := s.a.extractLsb' 64 64 ++ d }

/-- The write of `A_HI`: `A <- (d, A[63:0])` (R19, R44). -/
def State.setAHi (d : Word64) (s : State) : State := { s with a := d ++ s.a.extractLsb' 0 64 }

/-- `M <- d`. -/
def State.setM (d : Word64) (s : State) : State := { s with m := d }

/-- `V <- d`. -/
def State.setV (d : Word64) (s : State) : State := { s with v := d }

/-- `Q <- x`. -/
def State.setQ (x : Word32) (s : State) : State := { s with q := x }

/-- `STATUS.Z <- b`. -/
def State.setZ (b : Bool) (s : State) : State := { s with z := b }

/-- `STATUS.BIT <- b`. -/
def State.setBit (b : Bool) (s : State) : State := { s with bit := b }

/-- `STATUS.OK <- b`. -/
def State.setOk (b : Bool) (s : State) : State := { s with ok := b }

/-- `LEN <- n`, `DP <- d`, `BUF <- b` at once. -/
def State.setResult (n d : Word32) (b : Vector Byte 42) (s : State) : State := { s with len := n, dp := d, buf := b }

/-- The command in progress. -/
def State.setInFlight (f : Option InFlight) (s : State) : State := { s with inFlight := f }

/-- What the host does next. -/
def State.setInputs (l : List Input) (s : State) : State := { s with inputs := l }

/-- The data word returned to the host. -/
def State.setReadData (d : Option Word64) (s : State) : State := { s with readData := d }

/-- One UNSPECIFIED draw was made. -/
def State.countDraw (s : State) : State := { s with draws := s.draws + 1 }

/-- Taking an exception: `raise Fault(c)` records the cause if no fault is recorded yet, and nothing else
(spec/60_exceptions.md R143, R151). There is no return from it but reset (R152), which is `State.applyReset`. -/
def State.raiseFault (c : Cause) (s : State) : State :=
  match s.fault with
  | none => { s with fault := some c }
  | some _ => s

/-- The end of a command's completion: BUSY goes to 0 (spec/30_encoding.md R66). -/
def State.complete (s : State) : State := { s with inFlight := none }

/-- All of a write set takes one UNSPECIFIED draw (spec/00_scope.md R11; R145). -/
def State.unspecify (w : WriteSet) (s : State) : State :=
  { s with
    a := if w.a then Config.freeA s.unitNo s.draws else s.a
    q := if w.q then Config.freeQ s.unitNo s.draws else s.q
    z := if w.z then Config.freeZ s.unitNo s.draws else s.z
    bit := if w.bit then Config.freeBit s.unitNo s.draws else s.bit
    ok := if w.ok then Config.freeOk s.unitNo s.draws else s.ok
    len := if w.result then Config.freeLen s.unitNo s.draws else s.len
    dp := if w.result then Config.freeDp s.unitNo s.draws else s.dp
    buf := if w.result then Vector.ofFn (fun i => Config.freeByte s.unitNo s.draws i.val) else s.buf
    draws := s.draws + 1 }

/-- What a host read of a register returns (spec/20_memory.md R40, R42): narrower registers zero-extended, DP
sign-extended from bit 31, CMD 0. -/
def State.view (s : State) : Reg → Word64
  | .aLo => s.a.extractLsb' 0 64
  | .aHi => s.a.extractLsb' 64 64
  | .m => s.m
  | .v => s.v
  | .q => s.q.setWidth 64
  | .len => s.len.setWidth 64
  | .dp => s.dp.signExtend 64
  | .status => s.statusWord.setWidth 64
  | .cmd => 0#64
  | .buf i => (s.buf[i.val]).setWidth 64

/-- Reset (spec/70_reset_and_hazards.md R162, R163): every register takes its reset value and a command in progress is
abandoned. What the host does next, the count of draws and the number of the instance are no state of the unit and stay
(notes/assumptions/4.md). -/
def State.applyReset (s : State) : State :=
  { State.reset with inputs := s.inputs, draws := s.draws, unitNo := s.unitNo }

end Sys2Proof.Machine
end

