-- ==== Sys2Proof/Machine/Dtoa.lean ====
section
/-! DEFINITION. The DXP family: DTOA, its input check, decomposition, gate, regimes, termination and commit
(spec/41_fixed_dtoa.md). -/

namespace Sys2Proof.Machine

/-- `InputCheck(V)` fails (R98): the sign bit is 1 or the exponent field is 0x7FF. -/
def inputRejected (v : Word64) : Bool := signField v || decide (exponentField v = 0x7FF)

/-- `Decompose(V)` (R99): `v = f × 2^e`. -/
def decompose (v : Word64) : Nat × Int :=
  if exponentField v = 0 then (fractionField v, -1074)
  else (fractionField v + 2 ^ 52, (exponentField v : Int) - 1075)

/-- The five regimes (R102). -/
inductive Regime where
  | a
  | b
  | c
  | d
  | e
deriving DecidableEq, Repr

/-- Regime selection for `e ≤ 20` (R102), with the boundary of C and D as spec/90_conflicts.md C1 settles it. -/
def selectRegime (e : Int) : Regime :=
  if 12 ≤ e then .a
  else if 0 ≤ e then .b
  else if -52 ≤ e then .c
  else if -128 ≤ e then .d
  else .e

/-- `FIVE17` = 5^17 (R103). -/
def five17 : Nat := 0xB1A2BC2EC5

/-- The quotient and remainder of regime A: `v = q × 10^17 + r` (R103). -/
def splitRegimeA (f : Nat) (e : Int) : Nat × Nat :=
  if 17 < e then
    let dividend := f * 2 ^ (e - 17).toNat
    (dividend / five17, dividend % five17 * 2 ^ 17)
  else
    let divisor := five17 * 2 ^ (17 - e).toNat
    (f / divisor, f % divisor * 2 ^ e.toNat)

/-- `wdp <- wlen`. -/
def Work.pointAtEnd (w : Work) : Work := { w with dp := (w.digits.length : Int) }

/-- The working state at entry: `wlen = 0` (R101). -/
def Work.entry : Work := { digits := [], dp := 0 }

/-- Regime A (R103). -/
def regimeA (f : Nat) (e : Int) : Option Work :=
  let (q, r) := splitRegimeA f e
  if q < 2 ^ 32 ∧ r < 10 ^ 17 then
    ((fillDigits32 q Work.entry).bind (fillDigits64FixedLength r)).map Work.pointAtEnd
  else none

/-- Regime B (R105). -/
def regimeB (f : Nat) (e : Int) : Option Work :=
  (fillDigits64 (f * 2 ^ e.toNat) Work.entry).map Work.pointAtEnd

/-- Regime C (R106). -/
def regimeC (f : Nat) (e : Int) (fc : Nat) : Option Work :=
  let s := (-e).toNat
  let intPart := f / 2 ^ s
  let frac := f - intPart * 2 ^ s
  let emitted :=
    if 0xFFFFFFFF < intPart then fillDigits64 intPart Work.entry else fillDigits32 intPart Work.entry
  (emitted.map Work.pointAtEnd).bind (fillFractionals frac e fc)

/-- Regime D (R107). -/
def regimeD (f : Nat) (e : Int) (fc : Nat) : Option Work :=
  fillFractionals f e fc { Work.entry with dp := 0 }

/-- Regime E (R108). -/
def regimeE (fc : Nat) : Option Work := some { digits := [], dp := -(fc : Int) }

/-- The regime's work (R97). -/
def runRegime (f : Nat) (e : Int) (fc : Nat) : Option Work :=
  match selectRegime e with
  | .a => regimeA f e
  | .b => regimeB f e
  | .c => regimeC f e fc
  | .d => regimeD f e fc
  | .e => regimeE fc

/-- Trim and terminate (R109). The NUL is written at `wbuf[wlen]`, an index that must be below `P_BUF_CAP` (R121). -/
def terminate (fc : Nat) (w : Work) : Option Work :=
  let t := trimZeros w
  if t.digits.length < Config.bufCap then
    some (if t.digits = [] then { t with dp := -(fc : Int) } else t)
  else none

/-- How a DTOA ends. -/
inductive DtoaResult where
  /-- DTOA_INPUT (R98). -/
  | inputFault
  /-- Domain rejection (R100). -/
  | rejected
  /-- DTOA_INTERNAL (R113). -/
  | internalFault
  /-- Success, with the working state to commit (R110). -/
  | success (w : Work)
deriving DecidableEq, Repr

/-- The pipeline of R97, in the order of R148: input check, gate, regime, trim, terminate. -/
def dtoa (v : Word64) (fc : Nat) : DtoaResult :=
  if inputRejected v then .inputFault
  else
    let (f, e) := decompose v
    if Config.expMax < e ∨ Config.fcMax < fc then .rejected
    else
      match (runRegime f e fc).bind (terminate fc) with
      | none => .internalFault
      | some w => .success w

/-- The byte of `BUF` at an index after a commit: a digit, the NUL at `LEN`, UNSPECIFIED above it (R110, R112). -/
def committedByte (w : Work) (unitNo draw i : Nat) : Byte :=
  match w.digits[i]? with
  | some b => b
  | none => if i = w.digits.length then 0x00#8 else Config.freeByte unitNo draw i

/-- `Commit()` (R110), with the bytes above the terminator UNSPECIFIED (R112). -/
def State.commitWork (w : Work) (s : State) : State :=
  (((s.setResult (BitVec.ofNat 32 w.digits.length) (BitVec.ofInt 32 w.dp)
      (Vector.ofFn fun i => committedByte w s.unitNo s.draws i.val)).setOk true)).countDraw

/-- DTOA fc (R96): it reads `V`, and writes `OK`, `LEN`, `DP` and `BUF` (spec/10_state.md R35). -/
def execDtoa (fc : Nat) (s : State) : Host.Outcome State Fault Refusal :=
  match dtoa s.v fc with
  | .inputFault => .next (s.raiseFault .dtoaInput).complete
  | .rejected => .next (s.setOk false).complete
  | .internalFault => .next ((s.unspecify (writeSet (.dtoa fc))).raiseFault .dtoaInternal).complete
  | .success w => .next (s.commitWork w).complete

end Sys2Proof.Machine
end

