-- ==== Sys2Proof/Machine/U128.lean ====
section
/-! DEFINITION. The U128 family (spec/40_u128.md): NOP, MUL, SHF, DIVP2, BITAT, ISZ. A meaning is the command's rule
and its completion in one: it writes all results at once and BUSY goes to 0 (spec/30_encoding.md R66). -/

namespace Sys2Proof.Machine

/-- NOP (R77). -/
def execNop (s : State) : Host.Outcome State Fault Refusal :=
  .next s.complete

/-- MUL (R78); `A` is UNSPECIFIED after an overflow (spec/60_exceptions.md R145). -/
def execMul (s : State) : Host.Outcome State Fault Refusal :=
  let (r, ovf) := mul128 s.a s.m
  if ovf then .next ((s.unspecify (writeSet .mul)).raiseFault .mulOvf).complete
  else .next (s.setA r).complete

/-- SHF k (R81). -/
def execShf (k : Int) (s : State) : Host.Outcome State Fault Refusal :=
  if shiftLegal k then .next (s.setA (shift128 s.a k)).complete
  else .next (s.raiseFault .shiftRange).complete

/-- DIVP2 p (R84); `A` and `Q` are UNSPECIFIED after a quotient that does not fit (R145). -/
def execDivp2 (p : Nat) (s : State) : Host.Outcome State Fault Refusal :=
  if powerLegal p then
    let (q, r, qovf) := divmodp2 s.a p
    if qovf then .next ((s.unspecify (writeSet (.divp2 p))).raiseFault .divQovf).complete
    else .next ((s.setQ q).setA r).complete
  else .next (s.raiseFault .divRange).complete

/-- BITAT pos (R86). -/
def execBitat (pos : Nat) (s : State) : Host.Outcome State Fault Refusal :=
  if posLegal pos then .next (s.setBit (bitat s.a pos)).complete
  else .next (s.raiseFault .bitRange).complete

/-- ISZ (R88). -/
def execIsz (s : State) : Host.Outcome State Fault Refusal :=
  .next (s.setZ (iszero s.a)).complete

end Sys2Proof.Machine
end

