-- ==== Sys2Proof/Machine/Dispatch.lean ====
section
/-! DEFINITION. `exec`: one arm per command, each one call of its meaning. -/

namespace Sys2Proof.Machine

def exec (i : Instr) (s : State) : Host.Outcome State Fault Refusal :=
  match i with
  | .nop => Sys2Proof.Machine.execNop s
  | .mul => Sys2Proof.Machine.execMul s
  | .shf k => Sys2Proof.Machine.execShf k s
  | .divp2 p => Sys2Proof.Machine.execDivp2 p s
  | .bitat pos => Sys2Proof.Machine.execBitat pos s
  | .isz => Sys2Proof.Machine.execIsz s
  | .dtoa fc => Sys2Proof.Machine.execDtoa fc s

end Sys2Proof.Machine
end

