-- ==== Sys2Proof/WellFormed.lean ====
section
/-! DEFINITION. Which commands can be encoded: the encodable ranges of spec/30_encoding.md R59 and R63. A value
outside the LEGAL range of R59 but inside the encodable one is well formed, and faults or is rejected when it runs. -/

namespace Sys2Proof

/-- The operand of `i` lies in the encodable range of its field (R59, R63). -/
def Instr.wellFormed : Instr → Bool
  | .nop => true
  | .mul => true
  | .shf k => decide (-128 ≤ k) && decide (k ≤ 127)
  | .divp2 p => decide (p ≤ 255)
  | .bitat pos => decide (pos ≤ 255)
  | .isz => true
  | .dtoa fc => decide (fc ≤ 255)

end Sys2Proof
end

