-- ==== Sys2Proof/Decode.lean ====
section
/-! DEFINITION. Format CW: decoding, encoding and the mask/match table (spec/30_encoding.md R57 to R63). -/

namespace Sys2Proof

/-- Field RSV, bits 31:16 (R58). -/
def rsvField (w : Word32) : BitVec 16 := w.extractLsb' 16 16

/-- Field IMM8, bits 15:8 (R58). -/
def immField (w : Word32) : Byte := w.extractLsb' 8 8

/-- Field OPC, bits 7:0 (R58). -/
def opcField (w : Word32) : Byte := w.extractLsb' 0 8

/-- The word with RSV = 0 and the given IMM8 and OPC: `{RSV, IMM8, OPC}` (R58). -/
def commandWord (imm opc : Byte) : Word32 := (0#16 ++ imm) ++ opc

/-- Why a word is no command. All three are reported as ILLEGAL_CMD (R61, R62; spec/60_exceptions.md R148). -/
inductive DecodeReject where
  /-- RSV is not 0. -/
  | reservedBits
  /-- OPC is in 0x06..0x0F or 0x11..0xFF. -/
  | reservedOpcode
  /-- IMM8 is not 0 in NOP, MUL or ISZ. -/
  | immediateNotZero
deriving DecidableEq, Repr

/-- A command without an operand: IMM8 must be 0 (R61). -/
def noOperand (imm : Byte) (i : Instr) : Except DecodeReject Instr :=
  if imm = 0x00#8 then .ok i else .error .immediateNotZero

/-- `Decode(w)` (R61): total over all 2^32 words, RSV checked first, then OPC, then IMM8. -/
def decode (w : Word32) : Except DecodeReject Instr :=
  let imm := immField w
  let opc := opcField w
  if rsvField w ≠ 0x0000#16 then .error .reservedBits
  else if opc = 0x00#8 then noOperand imm .nop
  else if opc = 0x01#8 then noOperand imm .mul
  else if opc = 0x02#8 then .ok (.shf imm.toInt)
  else if opc = 0x03#8 then .ok (.divp2 imm.toNat)
  else if opc = 0x04#8 then .ok (.bitat imm.toNat)
  else if opc = 0x05#8 then noOperand imm .isz
  else if opc = 0x10#8 then .ok (.dtoa imm.toNat)
  else .error .reservedOpcode

/-- The opcode of each command (R60). -/
def opcode : Instr → Byte
  | .nop => 0x00#8
  | .mul => 0x01#8
  | .shf _ => 0x02#8
  | .divp2 _ => 0x03#8
  | .bitat _ => 0x04#8
  | .isz => 0x05#8
  | .dtoa _ => 0x10#8

/-- The IMM8 field of each command (R59, R63): `trunc_8(k)` for SHF, the operand itself for DIVP2, BITAT and DTOA. -/
def immediate : Instr → Byte
  | .nop => 0x00#8
  | .mul => 0x00#8
  | .shf k => BitVec.ofInt 8 k
  | .divp2 p => BitVec.ofNat 8 p
  | .bitat pos => BitVec.ofNat 8 pos
  | .isz => 0x00#8
  | .dtoa fc => BitVec.ofNat 8 fc

/-- `enc` (R63). -/
def encode (i : Instr) : Word32 := commandWord (immediate i) (opcode i)

/-- One row of the mask/match table (R61; spec/opcode_table.json). -/
structure OpcodeRow where
  mask : Word32
  bits : Word32
deriving DecidableEq, Repr

/-- `w` matches the row: its bits under the mask are the row's (R61). -/
def OpcodeRow.matches (r : OpcodeRow) (w : Word32) : Bool := (w &&& r.mask) == r.bits

/-- The seven rows of spec/opcode_table.json: NOP, MUL, SHF, DIVP2, BITAT, ISZ, DTOA. -/
def opcodeTable : List OpcodeRow :=
  [ ⟨0xFFFFFFFF#32, 0x00000000#32⟩,
    ⟨0xFFFFFFFF#32, 0x00000001#32⟩,
    ⟨0xFFFF00FF#32, 0x00000002#32⟩,
    ⟨0xFFFF00FF#32, 0x00000003#32⟩,
    ⟨0xFFFF00FF#32, 0x00000004#32⟩,
    ⟨0xFFFFFFFF#32, 0x00000005#32⟩,
    ⟨0xFFFF00FF#32, 0x00000010#32⟩ ]

/-- The host's question to the decoder: the command that the word `w`, of which the opcode table gives `nbits` bits,
decodes to. Every command is one 32-bit word (R57), so bits at 32 and above make it no command. -/
def decodeTableWord (nbits w : Nat) : Option Instr :=
  let v := w % 2 ^ nbits
  if v < 2 ^ 32 then
    match decode (BitVec.ofNat 32 v) with
    | .ok i => some i
    | .error _ => none
  else none

end Sys2Proof
end

