-- ==== Sys2Proof/Machine/HostAccess.lean ====
section
/-! DEFINITION. The host's register accesses (spec/20_memory.md R43 to R45) and the acceptance of a command
(spec/30_encoding.md R64). -/

namespace Sys2Proof.Machine

/-- Raised by a host access: the record of the fault, and no other effect (spec/60_exceptions.md R145). -/
def badAccess (s : State) : State := s.raiseFault .badAccess

/-- `HostRead(r)` (R43): the data word is `readData` of the result. An unmapped number records BAD_ACCESS and returns
an UNSPECIFIED word; state that the command in progress writes reads as a fresh draw (R167). -/
def hostRead (r : Byte) (s : State) : State :=
  match Reg.ofNumber r with
  | none => ((badAccess s).setReadData (some (Config.freeData s.unitNo s.draws))).countDraw
  | some reg =>
    match s.inFlight with
    | none => s.setReadData (some (s.view reg))
    | some f =>
      if reg.namesStateOf (writeSet f.cmd) then
        (s.setReadData (some ((s.unspecify (writeSet f.cmd)).view reg))).countDraw
      else s.setReadData (some (s.view reg))

/-- `CommandWrite(w)` (R64): an illegal word records ILLEGAL_CMD; a legal one starts its command, which the next
`latency` host accesses find busy. -/
def commandWrite (w : Word32) (latency : Nat) (s : State) : State :=
  match decode w with
  | .error _ => s.raiseFault .illegalCmd
  | .ok i => s.setInFlight (some { cmd := i, left := latency })

/-- `HostWrite(r, d)` (R44), with the checks in the order of spec/60_exceptions.md R148. -/
def hostWrite (r : Byte) (d : Word64) (latency : Nat) (s : State) : State :=
  if s.busy then s.raiseFault .busyViolation
  else if s.faulted then s
  else
    match Reg.ofNumber r with
    | some .aLo => s.setALo d
    | some .aHi => s.setAHi d
    | some .m => s.setM d
    | some .v => s.setV d
    | some .cmd =>
      if d.extractLsb' 32 32 = 0#32 then commandWrite (d.extractLsb' 0 32) latency s
      else s.raiseFault .illegalCmd
    | some .q => badAccess s
    | some .len => badAccess s
    | some .dp => badAccess s
    | some .status => badAccess s
    | some (.buf _) => badAccess s
    | none => badAccess s

end Sys2Proof.Machine
end

