-- ==== Sys2Proof/Machine/Turn.lean ====
section
/-! DEFINITION. One turn of the machine: the next input, and the completion of the command in progress when its time has
come (spec/30_encoding.md R65, R66; notes/assumptions/2.md). -/

namespace Sys2Proof.Machine

/-- One of the host accesses that find the unit busy is being made. -/
def State.countAccess (s : State) : State :=
  match s.inFlight with
  | none => s
  | some f => s.setInFlight (some { f with left := f.left - 1 })

/-- After an access: a command that no further access finds busy completes now (R65, R66). -/
def settle (s : State) : Host.Outcome State Fault Refusal :=
  match s.inFlight with
  | some ⟨i, 0⟩ => exec i s
  | some ⟨_, _ + 1⟩ => .next s
  | none => .next s

/-- Bit 0 of the word just read, which is BUSY if it was STATUS (spec/10_state.md R25). -/
def State.readBusy (s : State) : Bool :=
  match s.readData with
  | some d => d.getLsbD 0
  | none => false

/-- One read of STATUS by a WAIT; the WAIT goes on while the word read has BUSY = 1 (R68). -/
def waitRead (s : State) : State :=
  let t := hostRead statusNumber s
  if t.readBusy then t.setInputs (.wait :: t.inputs) else t

/-- One input, taken off the list already. -/
def serve (x : Input) (s : State) : Host.Outcome State Fault Refusal :=
  match x with
  | .read r => settle (hostRead r s.countAccess)
  | .write r d latency => settle (hostWrite r d latency s.countAccess)
  | .wait => settle (waitRead s.countAccess)
  | .reset => .next s.applyReset
  | .secondHost => .refused .secondHost

/-- One turn: the next input; with none left, the command in progress completes on its own (spec/70_reset_and_hazards.md
R173), and an idle unit keeps its state (spec/60_exceptions.md R160). -/
def turn (s : State) : Host.Outcome State Fault Refusal :=
  match s.inputs with
  | x :: rest => serve x ((s.setInputs rest).setReadData none)
  | [] =>
    match s.inFlight with
    | some f => exec f.cmd (s.setReadData none)
    | none => .next (s.setReadData none)

end Sys2Proof.Machine
end

