-- ==== Sys2Proof/Machine/Step.lean ====
section
/-! DEFINITION. The step of the machine, and the host's way to put one command word where the next step takes it. -/

namespace Sys2Proof.Machine

/-- One step. -/
def step (s : State) : Host.Outcome State Fault Refusal := turn s

/-- `s` with the host about to write the word `w` (of `nbits` bits) to CMD, as the command of latency 0 that runs in the
very next step (notes/assumptions/20.md). A command in progress or a recorded fault would keep it from being accepted
(spec/20_memory.md R44), so there is none. -/
def State.withFetchWord (s : State) (nbits w : Nat) : State :=
  { s with
    inFlight := none
    fault := none
    inputs := .write cmdNumber (BitVec.ofNat 64 (w % 2 ^ nbits)) 0 :: s.inputs }

end Sys2Proof.Machine
end

