-- ==== Sys2Proof/Machine/HostProgram.lean ====
section
/-! DEFINITION. The host's programs (spec/30_encoding.md R67 to R69; spec/70_reset_and_hazards.md R172): their lines,
what each line does to the unit, and a driver that runs a program against one instance. The host is outside the block
(spec/10_state.md R17); nothing here is state of CFD128. -/

namespace Sys2Proof.Machine

/-- A field of STATUS that an IF line tests (R68; spec/10_state.md R25). -/
inductive StatusField where
  | busy
  | fault
  | z
  | bit
  | ok
  | cause
deriving DecidableEq, Repr

/-- The value of a field in a word read from STATUS (spec/10_state.md R25). -/
def StatusField.extract (f : StatusField) (d : Word64) : Nat :=
  match f with
  | .busy => (d.extractLsb' 0 1).toNat
  | .fault => (d.extractLsb' 1 1).toNat
  | .z => (d.extractLsb' 2 1).toNat
  | .bit => (d.extractLsb' 3 1).toNat
  | .ok => (d.extractLsb' 4 1).toNat
  | .cause => (d.extractLsb' 8 4).toNat

/-- One line of a host program: the lines of R68, then the pseudo-instructions of R69. -/
inductive HostLine where
  | wr (r : Byte) (v : Word64)
  | rd (r : Byte)
  | wait
  | command (i : Instr)
  | repeatBegin (n : Nat)
  | repeatEnd
  | label (name : List Char)
  | ifGoto (f : StatusField) (v : Nat) (target : List Char)
  | reset
  | shl (n : Nat)
  | shr (n : Nat)
  | lda (hi lo : Word64)
  | ldm (m : Word64)
  | muli (m : Word64)
  | ldv (x : Word64)
  | rda
  | rddig
deriving DecidableEq, Repr

/-- The condition of R69 on the operand of SHL and SHR; every other line has none. -/
def HostLine.legal : HostLine → Bool
  | .shl n => decide (n ≤ 64)
  | .shr n => decide (n ≤ 64)
  | .command i => i.wellFormed
  | _ => true

/-- A command line: `WR CMD, enc(<command>)` followed by WAIT (R68). -/
def commandInputs (latency : Nat) (i : Instr) : List Input :=
  [.write cmdNumber ((encode i).setWidth 64) latency, .wait]

/-- The reads of BUF[0 .. n] at the end of RDDIG (R69), whose numbers are 0x40 + i (spec/20_memory.md R46). A LEN above
41, which is UNSPECIFIED while a DTOA is in progress or after DTOA_INTERNAL, would ask for BUF[i] that no register number
names; the host then stops at BUF[41]. DESIGN CHOICE, notes/assumptions/16.md. -/
def digitReads (n : Nat) : List Input :=
  (List.range (min (n + 1) Config.bufCap)).map fun i => .read (BitVec.ofNat 8 (0x40 + i))

/-- What a line does to the unit: the accesses it expands to (R68, R69). The host's own control flow (REPEAT, END, a
label, IF) does nothing to it. RDDIG's reads of BUF depend on the LEN it reads, so they follow it (`HostRun.digits`). -/
def HostLine.expand (latency : Nat) : HostLine → List Input
  | .wr r v => [.write r v latency]
  | .rd r => [.read r]
  | .wait => [.wait]
  | .command i => commandInputs latency i
  | .repeatBegin _ => []
  | .repeatEnd => []
  | .label _ => []
  | .ifGoto _ _ _ => []
  | .reset => [.reset]
  | .shl n => commandInputs latency (.shf (-(n : Int)))
  | .shr n => commandInputs latency (.shf (n : Int))
  | .lda hi lo => [.write 0x01#8 hi 0, .write 0x00#8 lo 0]
  | .ldm m => [.write 0x02#8 m 0]
  | .muli m => .write 0x02#8 m 0 :: commandInputs latency .mul
  | .ldv x => [.write 0x03#8 x 0]
  | .rda => [.read 0x01#8, .read 0x00#8]
  | .rddig => [.read statusNumber, .read 0x05#8, .read 0x06#8]

/-- The host running a program. -/
structure HostRun where
  /-- The program. -/
  lines : List HostLine
  /-- The line to issue next. -/
  next : Nat
  /-- The open REPEAT blocks, innermost first: the first line of the block and how often it still runs. -/
  loops : List (Nat × Nat)
  /-- Every value read so far with its register number, newest first: what a listing shows after `->`. -/
  reads : List (Byte × Word64)
  /-- RDDIG has read LEN and the reads of BUF are still to be issued. -/
  digits : Bool
  /-- How many lines were issued: the latency of a line's command is `latency` of this number. -/
  issued : Nat
deriving DecidableEq, Repr

/-- The host at the first line of a program. -/
def HostRun.start (lines : List HostLine) : HostRun :=
  { lines := lines, next := 0, loops := [], reads := [], digits := false, issued := 0 }

/-- The last value read from a register, if it was read (R68). -/
def HostRun.lastRead (h : HostRun) (r : Byte) : Option Word64 :=
  (h.reads.find? fun p => p.1 == r).map Prod.snd

/-- The number of lines up to and with the END of a block, whose inner blocks still open are counted by the first
argument. -/
def blockLength : Nat → List HostLine → Nat
  | _, [] => 0
  | depth, .repeatBegin _ :: ls => blockLength (depth + 1) ls + 1
  | 0, .repeatEnd :: _ => 1
  | depth + 1, .repeatEnd :: ls => blockLength depth ls + 1
  | depth, _ :: ls => blockLength depth ls + 1

/-- The host's control flow at a line: the host after it (R68, "invisible to CFD128"). Of ill-formed programs, of which
R68 says nothing: a GOTO to a label that no line bears ends the program, of two lines with one label a GOTO takes the
first, an END with no open REPEAT is passed over, a REPEAT 0 without an END skips to the program's end and any other
REPEAT without one runs its lines once. DESIGN CHOICE, notes/assumptions/16.md. -/
def HostRun.advance (h : HostRun) (l : HostLine) : HostRun :=
  let on := { h with next := h.next + 1, issued := h.issued + 1 }
  match l with
  | .repeatBegin 0 => { on with next := h.next + 1 + blockLength 0 (h.lines.drop (h.next + 1)) }
  | .repeatBegin (n + 1) => { on with loops := (h.next + 1, n) :: h.loops }
  | .repeatEnd =>
    match h.loops with
    | [] => on
    | (_, 0) :: rest => { on with loops := rest }
    | (first, n + 1) :: rest => { on with next := first, loops := (first, n) :: rest }
  | .ifGoto f v target =>
    match h.lastRead statusNumber with
    | some d => if f.extract d = v then { on with next := h.lines.findIdx (· == .label target) } else on
    | none => on
  | .rddig => { on with digits := true }
  | _ => on

/-- The host takes note of the word an access returned. -/
def HostRun.observe (h : HostRun) (x : Input) (t : State) : HostRun :=
  match x, t.readData with
  | .read r, some d => { h with reads := (r, d) :: h.reads }
  | .wait, some d => { h with reads := (statusNumber, d) :: h.reads }
  | _, _ => h

/-- How one step of the driver ends. -/
inductive DriveResult where
  /-- The program goes on. -/
  | more (h : HostRun) (s : State)
  /-- The program has ended (R172). -/
  | ended (h : HostRun) (s : State)
  /-- The unit gave no next state. -/
  | stopped
deriving DecidableEq, Repr

/-- The driver goes on after a step of the unit, if it gave a next state. -/
def DriveResult.afterStep (o : Host.Outcome State Fault Refusal) (h : State → HostRun) : DriveResult :=
  match o with
  | .next t => .more (h t) t
  | .fault _ => .stopped
  | .refused _ => .stopped

/-- One step of a host and its unit: the unit serves the accesses of the line issued last, and then the host issues its
next line. After the last line a command still in progress, which a bare write to CMD can leave, completes before the
program ends, because an end state has "no command in progress" (R172); for a last line that is no command line this is a
DESIGN CHOICE, notes/assumptions/16.md. `latency n` is P_LATENCY of the command that the `n`-th line starts (spec/00_scope.md R7). -/
def drive (latency : Nat → Nat) (h : HostRun) (s : State) : DriveResult :=
  match s.inputs with
  | x :: _ =>
    .afterStep (step s) (h.observe x)
  | [] =>
    if h.digits then
      .more { h with digits := false } (s.setInputs (digitReads (((h.lastRead 0x05#8).getD 0#64).toNat)))
    else
      match h.lines[h.next]? with
      | none => if s.busy then .afterStep (step s) (fun _ => h) else .ended h s
      | some l => .more (h.advance l) (s.setInputs (l.expand (latency h.issued)))

/-- At most `n` steps of the driver. -/
def driveSteps (latency : Nat → Nat) : Nat → HostRun → State → DriveResult
  | 0, h, s => .more h s
  | n + 1, h, s =>
    match drive latency h s with
    | .more h' s' => driveSteps latency n h' s'
    | .ended h' s' => .ended h' s'
    | .stopped => .stopped

end Sys2Proof.Machine
end

