-- ==== Sys2Proof/Machine/HostText.lean ====
section
/-! DEFINITION. The text of commands and host programs (spec/30_encoding.md R67 to R69): a total reader of one line,
given as its characters. It is a tool of the host, and no state of CFD128 depends on it. -/

namespace Sys2Proof.Machine

/-- Why a line is rejected. -/
inductive TextReject where
  /-- The first word is no mnemonic, or the words after it do not fit it. -/
  | badLine
  /-- An operand is outside the encodable range (R67), or the condition of a pseudo-instruction fails (R69). -/
  | outOfRange
deriving DecidableEq, Repr

/-- Blanks and the comma that separates the operands of WR. -/
def isSeparator (c : Char) : Bool := c == ' ' || c == '\t' || c == ','

/-- The words of a line; the second argument holds the word being read, last character first. -/
def splitWords : List Char → List Char → List (List Char)
  | [], cur => if cur.isEmpty then [] else [cur.reverse]
  | c :: cs, cur =>
    if isSeparator c then
      if cur.isEmpty then splitWords cs [] else cur.reverse :: splitWords cs []
    else splitWords cs (c :: cur)

/-- A `;` starts a comment (R67). -/
def stripComment (line : List Char) : List Char := line.takeWhile (· != ';')

/-- The value of a digit in base 16 or below. -/
def digitValue (base : Nat) (c : Char) : Option Nat :=
  let n := c.toNat
  let v :=
    if 0x30 ≤ n ∧ n ≤ 0x39 then some (n - 0x30)
    else if 0x41 ≤ n ∧ n ≤ 0x46 then some (n - 0x41 + 10)
    else if 0x61 ≤ n ∧ n ≤ 0x66 then some (n - 0x61 + 10)
    else none
  v.filter (· < base)

/-- Digits to a number, most significant first. -/
def readDigits (base : Nat) : Nat → List Char → Option Nat
  | acc, [] => some acc
  | acc, c :: cs => (digitValue base c).bind fun d => readDigits base (acc * base + d) cs

/-- A decimal or `0x`-hexadecimal number (R67). -/
def readNat : List Char → Option Nat
  | [] => none
  | ['0', 'x'] => none
  | '0' :: 'x' :: cs => readDigits 16 0 cs
  | cs => readDigits 10 0 cs

/-- A number that may bear a minus sign: the hyphen or the sign U+2212 that the spec prints. -/
def readInt : List Char → Option Int
  | '-' :: cs => (readNat cs).map fun n => -(n : Int)
  | '−' :: cs => (readNat cs).map fun n => -(n : Int)
  | cs => (readNat cs).map fun n => (n : Int)

/-- A 64-bit data word. -/
def readWord (cs : List Char) : Option Word64 :=
  (readNat cs).bind fun n => if n < 2 ^ 64 then some (BitVec.ofNat 64 n) else none

/-- A register: a name of spec/20_memory.md R40, `BUF[i]`, or a register number. -/
def readReg : List Char → Option Byte
  | ['A', '_', 'L', 'O'] => some 0x00#8
  | ['A', '_', 'H', 'I'] => some 0x01#8
  | ['M'] => some 0x02#8
  | ['V'] => some 0x03#8
  | ['Q'] => some 0x04#8
  | ['L', 'E', 'N'] => some 0x05#8
  | ['D', 'P'] => some 0x06#8
  | ['S', 'T', 'A', 'T', 'U', 'S'] => some 0x07#8
  | ['C', 'M', 'D'] => some 0x08#8
  | 'B' :: 'U' :: 'F' :: '[' :: cs =>
    match cs.reverse with
    | ']' :: ds => (readNat ds.reverse).bind fun i => if i < 42 then some (BitVec.ofNat 8 (0x40 + i)) else none
    | _ => none
  | cs => (readNat cs).bind fun n => if n < 256 then some (BitVec.ofNat 8 n) else none

/-- A field of STATUS, written `STATUS.<field>` in an IF line (R68). -/
def readField : List Char → Option StatusField
  | 'S' :: 'T' :: 'A' :: 'T' :: 'U' :: 'S' :: '.' :: cs =>
    match cs with
    | ['B', 'U', 'S', 'Y'] => some .busy
    | ['F', 'A', 'U', 'L', 'T'] => some .fault
    | ['Z'] => some .z
    | ['B', 'I', 'T'] => some .bit
    | ['O', 'K'] => some .ok
    | ['C', 'A', 'U', 'S', 'E'] => some .cause
    | _ => none
  | _ => none

/-- A command of R67 from its words. An operand outside the encodable range is rejected; one outside the legal range is
accepted, and faults when it runs. -/
def readCommand : List (List Char) → Option Instr
  | [['N', 'O', 'P']] => some .nop
  | [['M', 'U', 'L']] => some .mul
  | [['I', 'S', 'Z']] => some .isz
  | [['S', 'H', 'F'], k] => (readInt k).map .shf
  | [['D', 'I', 'V', 'P', '2'], p] => (readNat p).map .divp2
  | [['B', 'I', 'T', 'A', 'T'], pos] => (readNat pos).map .bitat
  | [['D', 'T', 'O', 'A'], fc] => (readNat fc).map .dtoa
  | _ => none

/-- A line of R68 or R69 from its words, a label apart. -/
def readOperation : List (List Char) → Option HostLine
  | [['W', 'R'], r, v] => (readReg r).bind fun n => (readWord v).map fun w => .wr n w
  | [['R', 'D'], r] => (readReg r).map .rd
  | [['W', 'A', 'I', 'T']] => some .wait
  | [['R', 'E', 'P', 'E', 'A', 'T'], n] => (readNat n).map .repeatBegin
  | [['E', 'N', 'D']] => some .repeatEnd
  | [['I', 'F'], f, ['='], v, ['G', 'O', 'T', 'O'], target] =>
    (readField f).bind fun g => (readNat v).map fun n => .ifGoto g n target
  | [['R', 'E', 'S', 'E', 'T']] => some .reset
  | [['S', 'H', 'L'], n] => (readNat n).map .shl
  | [['S', 'H', 'R'], n] => (readNat n).map .shr
  | [['L', 'D', 'A'], hi, lo] => (readWord hi).bind fun h => (readWord lo).map fun l => .lda h l
  | [['L', 'D', 'M'], m] => (readWord m).map .ldm
  | [['M', 'U', 'L', 'I'], m] => (readWord m).map .muli
  | [['L', 'D', 'V'], x] => (readWord x).map .ldv
  | [['R', 'D', 'A']] => some .rda
  | [['R', 'D', 'D', 'I', 'G']] => some .rddig
  | ws => (readCommand ws).map .command

/-- A line's operation, checked against its range. -/
def readChecked (ws : List (List Char)) : Except TextReject (List HostLine) :=
  match ws with
  | [] => .ok []
  | _ =>
    match readOperation ws with
    | none => .error .badLine
    | some l => if l.legal then .ok [l] else .error .outOfRange

/-- One line of text: nothing (an empty line or a comment), a label, an operation, or a label and an operation. -/
def readLine (line : List Char) : Except TextReject (List HostLine) :=
  match splitWords (stripComment line) [] with
  | [] => .ok []
  | w :: ws =>
    match w.reverse with
    | ':' :: name => (readChecked ws).map fun ls => .label name.reverse :: ls
    | _ => readChecked (w :: ws)

/-- A whole program, one line after the other. -/
def readProgram : List (List Char) → Except TextReject (List HostLine)
  | [] => .ok []
  | line :: rest =>
    match readLine line with
    | .error r => .error r
    | .ok ls => (readProgram rest).map fun more => ls ++ more

end Sys2Proof.Machine
end

