-- ==== Sys2Proof/Machine/System.lean ====
section
/-! DEFINITION. Several instances (spec/60_exceptions.md R158): `P_UNITS` independent units, each with its own state. -/

namespace Sys2Proof.Machine

/-- A system: one state per instance, `P_UNITS` of them (spec/00_scope.md R7). -/
abbrev System := List State

/-- Every instance starts from its own reset (R158), with its own number, so that its UNSPECIFIED values are its own:
the model's choice, notes/assumptions/14.md. -/
def System.reset (units : Nat) : System := (List.range units).map fun n => { State.reset with unitNo := n }

/-- Instance `n` makes one step and every other instance keeps its state. A number no instance has moves nothing. -/
def System.stepUnit (n : Nat) (sys : System) : Host.Outcome System Fault Refusal :=
  match sys[n]? with
  | none => .next sys
  | some s =>
    match step s with
    | .next t => .next (sys.set n t)
    | .fault r => .fault r
    | .refused r => .refused r

end Sys2Proof.Machine
end

