-- ==== Sys2Proof/Safety.lean ====
section
/-! DEFINITION. The terms that statements about CFD128 use: the value of a result (spec/41_fixed_dtoa.md R111), of a
binary64 input and of a working state, the states every run stays in, and a host that waits. -/

namespace Sys2Proof.Machine

/-- The digit a character stands for (spec/00_scope.md R13). -/
def digitOf (b : Byte) : Nat := b.toNat - 0x30

/-- The character is one of '0' to '9'. -/
def isDigit (b : Byte) : Bool := decide (0x30 ≤ b.toNat) && decide (b.toNat ≤ 0x39)

/-- The number that digit characters write, most significant first. -/
def decimalNat (ds : List Byte) : Nat := ds.foldl (fun n b => 10 * n + digitOf b) 0

/-- `BUF[i]`, 0x00 beyond the buffer. -/
def State.bufAt (s : State) (i : Nat) : Byte := (s.buf[i]?).getD 0x00#8

/-- The decimal value `D` of the result: the sum of `d_i × 10^(DP − 1 − i)` over `BUF[0..LEN)` (R111). -/
def State.decimalValue (s : State) : ℚ :=
  ∑ i ∈ Finset.range s.len.toNat, (digitOf (s.bufAt i) : ℚ) * 10 ^ (s.dp.toInt - 1 - (i : Int))

/-- The value `v = f × 2^e` of a finite non-negative binary64 pattern (R99). -/
def binary64Value (v : Word64) : ℚ := ((decompose v).1 : ℚ) * 2 ^ (decompose v).2

/-- The value of a working state: its digits with the decimal point after the first `wdp` of them (R111). -/
def Work.value (w : Work) : ℚ := (decimalNat w.digits : ℚ) * 10 ^ (w.dp - (w.digits.length : Int))

/-- Every byte of the working state is a digit character. -/
def Work.allDigits (w : Work) : Prop := ∀ b ∈ w.digits, isDigit b = true

/-- The register numbers that name no register (spec/20_memory.md R40, R50). -/
def unmapped (r : Byte) : Prop := (0x09 ≤ r.toNat ∧ r.toNat ≤ 0x3F) ∨ 0x6A ≤ r.toNat

/-- The input passes the check of R98: it is finite and non-negative. -/
def passesInputCheck (v : Word64) : Prop := v.getLsbD 63 = false ∧ (v.extractLsb' 52 11).toNat ≠ 0x7FF

/-- The input passes the check of R98 and the gate of R100. -/
def dtoaAccepts (v : Word64) (fc : Nat) : Prop := passesInputCheck v ∧ (decompose v).2 ≤ 20 ∧ fc ≤ 20

/-- What every run keeps (R23, R24, R115 to R117): LEN and DP in their ranges, `BUF[0..LEN)` digits with neither a
leading nor a trailing zero, the NUL after them; and a command in progress is well formed and finds at least one more
access busy. -/
structure State.Inv (s : State) : Prop where
  lenBound : s.len.toNat ≤ 36
  dpLow : -20 ≤ s.dp.toInt
  dpHigh : s.dp.toInt ≤ 22
  digits : ∀ i < s.len.toNat, isDigit (s.bufAt i) = true
  terminator : s.bufAt s.len.toNat = 0x00#8
  noLeadingZero : 1 ≤ s.len.toNat → s.bufAt 0 ≠ 0x30#8
  noTrailingZero : 1 ≤ s.len.toNat → s.bufAt (s.len.toNat - 1) ≠ 0x30#8
  inFlight : ∀ f, s.inFlight = some f → 1 ≤ f.left ∧ f.cmd.wellFormed = true

/-- A host access of the instance's one host: it counts towards the latency of the command in progress (R65). -/
def Input.isAccess : Input → Bool
  | .read _ => true
  | .write _ _ _ => true
  | .wait => true
  | .reset => false
  | .secondHost => false

/-- The next input is a WAIT. -/
def startsWithWait : List Input → Bool
  | .wait :: _ => true
  | _ => false

/-- The host's safe pattern (spec/70_reset_and_hazards.md R166): every write to CMD is followed at once by a WAIT. -/
def waitsAfterCommands : List Input → Bool
  | [] => true
  | .write r _ _ :: rest => (r != cmdNumber || startsWithWait rest) && waitsAfterCommands rest
  | _ :: rest => waitsAfterCommands rest

/-- The state of a host that keeps to the safe pattern: it waits after every command, and while a command is in progress
it is waiting. -/
def State.hostWaits (s : State) : Prop :=
  waitsAfterCommands s.inputs = true ∧ (s.inFlight ≠ none → startsWithWait s.inputs = true)

/-- The command whose completion a step can be: the one in progress, or the one that the next input writes to CMD with
latency 0 (R64 to R66). -/
def State.completing (s : State) (i : Instr) : Prop :=
  (∃ n, s.inFlight = some { cmd := i, left := n }) ∨
  (s.inFlight = none ∧ ∃ d rest, s.inputs = .write 0x08#8 d 0 :: rest ∧ decode (d.extractLsb' 0 32) = .ok i)

/-- A state of the unit agrees with another in every register the host can read but STATUS.BUSY, FAULT and CAUSE. -/
def State.sameRegisters (s t : State) : Prop :=
  t.a = s.a ∧ t.m = s.m ∧ t.v = s.v ∧ t.q = s.q ∧ t.len = s.len ∧ t.dp = s.dp ∧ t.buf = s.buf ∧
    t.z = s.z ∧ t.bit = s.bit ∧ t.ok = s.ok

end Sys2Proof.Machine
end

