-- ==== Sys2Proof/Certificates/Slice0/Obligations.lean ====
section
/-! DEFINITION. The statements about CFD128. A statement about a UNSPECIFIED value says that there is one and nothing
else of it, so it holds for every value (notes/assumptions/3.md). -/

open Sys2Proof Sys2Proof.Machine

/-! ### Encoding and decoding -/

/-- R63, the encoding function and its examples. -/
def Obligations.EncodingFunctionGivesTheWords : Prop :=
  encode .nop = 0x00000000#32 ∧
  encode .mul = 0x00000001#32 ∧
  (∀ k : Int, -128 ≤ k → k ≤ 127 →
    encode (.shf k) = 0x00000002#32 ||| BitVec.ofNat 32 ((k % 2 ^ 8).toNat * 2 ^ 8)) ∧
  (∀ p : Nat, p ≤ 255 → encode (.divp2 p) = 0x00000003#32 ||| BitVec.ofNat 32 (p * 2 ^ 8)) ∧
  (∀ pos : Nat, pos ≤ 255 → encode (.bitat pos) = 0x00000004#32 ||| BitVec.ofNat 32 (pos * 2 ^ 8)) ∧
  encode .isz = 0x00000005#32 ∧
  (∀ fc : Nat, fc ≤ 255 → encode (.dtoa fc) = 0x00000010#32 ||| BitVec.ofNat 32 (fc * 2 ^ 8)) ∧
  encode (.shf (-64)) = 0x0000C002#32 ∧ encode (.shf 64) = 0x00004002#32 ∧ encode (.shf (-1)) = 0x0000FF02#32 ∧
  encode (.divp2 127) = 0x00007F03#32 ∧ encode (.bitat 126) = 0x00007E04#32 ∧
  encode (.dtoa 5) = 0x00000510#32 ∧ encode (.dtoa 20) = 0x00001410#32

/-- R61 and R63: decoding the word of a well-formed command gives the command back, for every operand. -/
def Obligations.DecodeOfEncodeIsTheCommand : Prop :=
  ∀ i : Instr, i.wellFormed = true → decode (encode i) = .ok i

/-- R61 to R63: a word that decodes is the word of the command it decodes to, and that command is well formed. -/
def Obligations.EncodeOfDecodeIsTheWord : Prop :=
  ∀ (w : Word32) (i : Instr), decode w = .ok i → i.wellFormed = true ∧ encode i = w

/-- R61, last sentence: exactly one row of the mask/match table matches each legal word and no row matches an illegal
one. -/
def Obligations.LegalWordsMatchExactlyOneRow : Prop :=
  ∀ w : Word32,
    (∀ i, decode w = .ok i → (opcodeTable.filter fun r => r.matches w).length = 1) ∧
    (∀ e, decode w = .error e → (opcodeTable.filter fun r => r.matches w).length = 0)

/-- R62: which words are illegal. -/
def Obligations.IllegalWordsAreTheReservedOnes : Prop :=
  ∀ w : Word32,
    (∃ e, decode w = .error e) ↔
      (w.toNat / 2 ^ 16 ≠ 0 ∨
        (0x06 ≤ w.toNat % 2 ^ 8 ∧ w.toNat % 2 ^ 8 ≤ 0x0F) ∨
        (0x11 ≤ w.toNat % 2 ^ 8 ∧ w.toNat % 2 ^ 8 ≤ 0xFF) ∨
        ((w.toNat % 2 ^ 8 = 0x00 ∨ w.toNat % 2 ^ 8 = 0x01 ∨ w.toNat % 2 ^ 8 = 0x05) ∧ w.toNat / 2 ^ 8 % 2 ^ 8 ≠ 0))

/-- Words written out from the encoding (R58 to R60) decode to the commands they stand for. -/
def Obligations.SpecWordsDecodeToTheirCommands : Prop :=
  decode 0x00000000#32 = .ok .nop ∧ decode 0x00000001#32 = .ok .mul ∧ decode 0x0000C002#32 = .ok (.shf (-64)) ∧
  decode 0x00007F03#32 = .ok (.divp2 127) ∧ decode 0x00007E04#32 = .ok (.bitat 126) ∧
  decode 0x00000005#32 = .ok .isz ∧ decode 0x00001410#32 = .ok (.dtoa 20)

/-! ### The step -/

/-- A write to CMD of a word that decodes, while no command is in progress and no fault is recorded: with latency 0 the
step is the command's execution, otherwise the command is in progress afterwards (R44, R64 to R66). That the latency
is part of the write, and that completion is no step of its own, is the model's choice (notes/assumptions/2.md). -/
def Obligations.StepRunsTheDecodedCommand : Prop :=
  ∀ (s : State) (d : Word64) (latency : Nat) (rest : List Input) (i : Instr),
    s.inputs = .write 0x08#8 d latency :: rest → s.inFlight = none → s.fault = none →
    d.extractLsb' 32 32 = 0#32 → decode (d.extractLsb' 0 32) = .ok i →
    (latency = 0 →
      step s = exec i { s with inputs := rest, readData := none, inFlight := some { cmd := i, left := 0 } }) ∧
    (latency ≠ 0 →
      step s = .next { s with inputs := rest, readData := none, inFlight := some { cmd := i, left := latency } })

/-- The access that is the last to find the unit busy, be it a write, a read or the STATUS read of a WAIT (which then
goes on), ends with the command's completion, and so does a step with no access left; the registers the command sees are those of the state before (R65, R66). The step with no access left is
the model's choice (notes/assumptions/2.md). -/
def Obligations.StepCompletesTheCommandInProgress : Prop :=
  ∀ (s : State) (i : Instr), s.inFlight = some { cmd := i, left := 1 } →
    (∀ r d latency rest, s.inputs = .write r d latency :: rest →
      step s = exec i { s with
        inputs := rest, readData := none, fault := some (s.fault.getD .busyViolation),
        inFlight := some { cmd := i, left := 0 } }) ∧
    (∀ r rest, s.inputs = .read r :: rest →
      ∃ u, step s = exec i u ∧ s.sameRegisters u ∧ u.inputs = rest ∧ u.readData.isSome = true ∧
        (¬unmapped r → u.fault = s.fault) ∧ (unmapped r → u.fault = some (s.fault.getD .badAccess))) ∧
    (∀ rest, s.inputs = .wait :: rest →
      ∃ u, step s = exec i u ∧ s.sameRegisters u ∧ u.inputs = .wait :: rest ∧ u.fault = s.fault ∧
        ∃ d, u.readData = some d ∧ d.getLsbD 0 = true) ∧
    (s.inputs = [] → step s = exec i { s with readData := none })

/-- R62 and R44: an illegal word, or one with a bit set above bit 31, starts nothing and only records ILLEGAL_CMD. -/
def Obligations.IllegalWordStartsNothing : Prop :=
  ∀ (s : State) (d : Word64) (latency : Nat) (rest : List Input),
    s.inputs = .write 0x08#8 d latency :: rest → s.inFlight = none → s.fault = none →
    (d.toNat / 2 ^ 32 ≠ 0 ∨ ∃ e, decode (d.extractLsb' 0 32) = .error e) →
    step s = .next { s with inputs := rest, readData := none, fault := some .illegalCmd }

/-- With nothing to do, an idle unit keeps its state (R160); a second host's access is refused (R56). That there is such
a step, and that a second host is an input, are the model's choices (notes/assumptions/1.md, 13.md). -/
def Obligations.IdleUnitKeepsItsStateAndASecondHostIsRefused : Prop :=
  (∀ s : State, s.inputs = [] → s.inFlight = none → step s = .next { s with readData := none }) ∧
  (∀ (s : State) (rest : List Input), s.inputs = .secondHost :: rest → step s = .refused .secondHost)

/-! ### The U128 commands -/

/-- R77: NOP changes nothing; it only ends. -/
def Obligations.NopChangesNothing : Prop :=
  ∀ s : State, exec .nop s = .next { s with inFlight := none }

/-- R78: MUL writes the exact product below 2^128 to `A`. -/
def Obligations.MulWritesTheExactProduct : Prop :=
  ∀ s : State, s.a.toNat * s.m.toNat < 2 ^ 128 →
    exec .mul s = .next { s with a := BitVec.ofNat 128 (s.a.toNat * s.m.toNat), inFlight := none }

/-- R81: SHF divides by 2^k for `0 ≤ k ≤ 64` and multiplies by 2^(−k) modulo 2^128 for `−64 ≤ k < 0`. -/
def Obligations.ShfIsTheLogicalShift : Prop :=
  ∀ (s : State) (k : Int), -64 ≤ k → k ≤ 64 →
    exec (.shf k) s = .next { s with
      a := BitVec.ofNat 128
        (if 0 ≤ k then s.a.toNat / 2 ^ k.toNat else s.a.toNat * 2 ^ (-k).toNat % 2 ^ 128)
      inFlight := none }

/-- R84: DIVP2 writes the quotient to `Q` and the remainder to `A`. -/
def Obligations.Divp2WritesQuotientAndRemainder : Prop :=
  ∀ (s : State) (p : Nat), p ≤ 127 → s.a.toNat / 2 ^ p < 2 ^ 32 →
    exec (.divp2 p) s = .next { s with
      q := BitVec.ofNat 32 (s.a.toNat / 2 ^ p)
      a := BitVec.ofNat 128 (s.a.toNat % 2 ^ p)
      inFlight := none }

/-- R86: BITAT writes the selected bit to STATUS.BIT. -/
def Obligations.BitatWritesTheSelectedBit : Prop :=
  ∀ (s : State) (pos : Nat), pos ≤ 127 →
    exec (.bitat pos) s = .next { s with bit := decide (s.a.toNat / 2 ^ pos % 2 = 1), inFlight := none }

/-- R88: ISZ writes STATUS.Z. -/
def Obligations.IszTestsForZero : Prop :=
  ∀ s : State, exec .isz s = .next { s with z := decide (s.a.toNat = 0), inFlight := none }

/-- R145: MUL_OVF leaves `A` and DIV_QOVF leaves `A` and `Q` at some value; the fault is recorded if it is the first,
and nothing else changes (but the model's count of draws, notes/assumptions/3.md). -/
def Obligations.ArithmeticOverflowsFault : Prop :=
  (∀ s : State, 2 ^ 128 ≤ s.a.toNat * s.m.toNat →
    ∃ a' n, exec .mul s = .next { s with
      a := a', fault := some (s.fault.getD .mulOvf), inFlight := none, draws := n }) ∧
  (∀ (s : State) (p : Nat), p ≤ 127 → 2 ^ 32 ≤ s.a.toNat / 2 ^ p →
    ∃ a' q' n, exec (.divp2 p) s = .next { s with
      a := a', q := q', fault := some (s.fault.getD .divQovf), inFlight := none, draws := n })

/-- R145: a range fault changes nothing but the fault record. -/
def Obligations.RangeFaultsOnlyRecord : Prop :=
  (∀ (s : State) (k : Int), k < -64 ∨ 64 < k →
    exec (.shf k) s = .next { s with fault := some (s.fault.getD .shiftRange), inFlight := none }) ∧
  (∀ (s : State) (p : Nat), 127 < p →
    exec (.divp2 p) s = .next { s with fault := some (s.fault.getD .divRange), inFlight := none }) ∧
  (∀ (s : State) (pos : Nat), 127 < pos →
    exec (.bitat pos) s = .next { s with fault := some (s.fault.getD .bitRange), inFlight := none })

/-! ### The laws of the U128 functions -/

/-- R89 and R92. -/
def Obligations.MulByOneAndZeroTest : Prop :=
  (∀ a : U128, mul128 a 1#64 = (a, false)) ∧ iszero 0#128 = true ∧ ∀ a : U128, a ≠ 0#128 → iszero a = false

/-- R90: when a shift and the shift back give the value back. -/
def Obligations.ShiftRoundTripHoldsWhenNoBitIsLost : Prop :=
  (∀ (a : U128) (k : Int), 0 < k → k < 64 →
    (shift128 (shift128 a k) (-k) = a ↔ a.toNat % 2 ^ k.toNat = 0) ∧
    (shift128 (shift128 a (-k)) k = a ↔ a.toNat < 2 ^ (128 - k.toNat))) ∧
  (∀ a : U128, shift128 (shift128 a 0) (-0) = a ∧ shift128 (shift128 a (-0)) 0 = a)

/-- R91: the division identity, and what becomes of it when the quotient does not fit. -/
def Obligations.DivisionIdentity : Prop :=
  (∀ (a : U128) (p : Nat) (q : Word32) (r : U128), p ≤ 127 → divmodp2 a p = (q, r, false) →
    a.toNat = q.toNat * 2 ^ p + r.toNat ∧ r.toNat < 2 ^ p) ∧
  (∀ (s : State) (p : Nat) (q : Word32) (r : U128), p ≤ 127 → divmodp2 s.a p = (q, r, true) →
    s.a.toNat = s.a.toNat / 2 ^ p * 2 ^ p + r.toNat ∧ s.a.toNat ≠ q.toNat * 2 ^ p + r.toNat ∧
    ∃ t, exec (.divp2 p) s = .next t ∧ t.fault = some (s.fault.getD .divQovf))

/-- R94: shifts, multiplication and division by powers of two agree. -/
def Obligations.ShiftMultiplyAndDivideAgree : Prop :=
  (∀ (a : U128) (n : Nat), n ≤ 63 → a.toNat < 2 ^ (128 - n) →
    mul128 a (BitVec.ofNat 64 (2 ^ n)) = (shift128 a (-(n : Int)), false)) ∧
  (∀ (s : State) (n : Nat), n ≤ 63 → s.m = BitVec.ofNat 64 (2 ^ n) → 2 ^ (128 - n) ≤ s.a.toNat →
    (∃ t, exec .mul s = .next t ∧ t.fault = some (s.fault.getD .mulOvf)) ∧
    exec (.shf (-(n : Int))) s = .next { s with
      a := BitVec.ofNat 128 (s.a.toNat * 2 ^ n % 2 ^ 128), inFlight := none }) ∧
  (∀ (a : U128) (p : Nat), p ≤ 64 → (shift128 a (p : Int)).toNat = a.toNat / 2 ^ p)

/-- R76: the school multiplication in four partial products gives the product and the overflow of `mul128` for every
multiplicand below 2^32. -/
def Obligations.SchoolMultiplicationAgrees : Prop :=
  ∀ (a : U128) (m : Word64), m.toNat < 2 ^ 32 → schoolMul a m = mul128 a m

/-- R80 and R83: the half-wise forms of the shift and of the division equal the whole ones. -/
def Obligations.HalfwiseFormsAgree : Prop :=
  (∀ (a : U128) (k : Int), -64 ≤ k → k ≤ 64 → halfwiseShift a k = shift128 a k) ∧
  (∀ (a : U128) (p : Nat), p ≤ 127 → splitDivmod a p = (a.toNat / 2 ^ p, a.toNat % 2 ^ p))

/-! ### DTOA -/

/-- An accepted DTOA completes with OK = 1 and changes nothing outside `OK`, `LEN`, `DP` and `BUF` (R35, R96, R110). -/
def Obligations.DtoaCompletesOnAcceptedInput : Prop :=
  ∀ (s : State) (fc : Nat), dtoaAccepts s.v fc →
    ∃ len' dp' buf' n, exec (.dtoa fc) s = .next { s with
      ok := true, len := len', dp := dp', buf := buf', draws := n, inFlight := none }

/-- R114: no internal check fails for an input that passes the input check and the gate. -/
def Obligations.DtoaNeverFailsAnInternalCheck : Prop :=
  ∀ (v : Word64) (fc : Nat), dtoaAccepts v fc →
    (∃ w, dtoa v fc = .success w) ∧
    ∀ s t : State, s.v = v → exec (.dtoa fc) s = .next t → t.fault = s.fault

/-- R116 and R117: the result is digits and a NUL, with neither a leading nor a trailing zero. -/
def Obligations.DtoaResultIsTrimmedDigits : Prop :=
  ∀ (s : State) (fc : Nat), dtoaAccepts s.v fc →
    ∃ t, exec (.dtoa fc) s = .next t ∧ t.ok = true ∧
      (∀ i < t.len.toNat, 0x30 ≤ (t.bufAt i).toNat ∧ (t.bufAt i).toNat ≤ 0x39) ∧
      t.bufAt t.len.toNat = 0x00#8 ∧
      (1 ≤ t.len.toNat → t.bufAt 0 ≠ 0x30#8 ∧ t.bufAt (t.len.toNat - 1) ≠ 0x30#8)

/-- R115: the size of a result, by regime. -/
def Obligations.DtoaResultSize : Prop :=
  ∀ (s : State) (fc : Nat), dtoaAccepts s.v fc →
    ∃ t, exec (.dtoa fc) s = .next t ∧ t.len.toNat ≤ 36 ∧ -20 ≤ t.dp.toInt ∧ t.dp.toInt ≤ 22 ∧
      (t.len = 0#32 → t.dp.toInt = -(fc : Int)) ∧
      (t.len ≠ 0#32 →
        (12 ≤ (decompose s.v).2 → 20 ≤ t.dp.toInt) ∧
        (0 ≤ (decompose s.v).2 ∧ (decompose s.v).2 ≤ 11 → 16 ≤ t.dp.toInt ∧ t.dp.toInt ≤ 20) ∧
        (-52 ≤ (decompose s.v).2 ∧ (decompose s.v).2 ≤ -1 → 1 ≤ t.dp.toInt ∧ t.dp.toInt ≤ 16) ∧
        (-128 ≤ (decompose s.v).2 ∧ (decompose s.v).2 ≤ -53 → -20 ≤ t.dp.toInt ∧ t.dp.toInt ≤ 1)) ∧
      ((decompose s.v).2 < -128 → t.len = 0#32)

/-- R118: the result is the input rounded to `fc` places, halves up. -/
def Obligations.DtoaRoundsToTheNearestDecimal : Prop :=
  ∀ (s : State) (fc : Nat), dtoaAccepts s.v fc →
    ∃ t, exec (.dtoa fc) s = .next t ∧ t.ok = true ∧
      |t.decimalValue - binary64Value s.v| ≤ 1 / 2 * 10 ^ (-(fc : Int)) ∧
      (∀ n : ℤ, binary64Value s.v = (n + 1 / 2) * 10 ^ (-(fc : Int)) →
        t.decimalValue = (n + 1) * 10 ^ (-(fc : Int))) ∧
      (∀ n : ℤ, binary64Value s.v = n * 10 ^ (-(fc : Int)) → t.decimalValue = binary64Value s.v)

/-- R119: an empty result has `DP = −fc`, and OK = 0 exactly on domain rejection. -/
def Obligations.DtoaEmptyResultAndStableRejection : Prop :=
  ∀ (s : State) (fc : Nat), passesInputCheck s.v →
    ∃ t, exec (.dtoa fc) s = .next t ∧
      (t.ok = true → t.len = 0#32 → t.dp.toInt = -(fc : Int)) ∧
      (t.ok = false ↔ (20 < (decompose s.v).2 ∨ 20 < fc))

/-- R100: domain rejection clears OK and changes nothing else, and for `fc ≤ 20` it happens exactly from 2^73 on. -/
def Obligations.DtoaDomainRejection : Prop :=
  (∀ (s : State) (fc : Nat), passesInputCheck s.v → 20 < (decompose s.v).2 ∨ 20 < fc →
    exec (.dtoa fc) s = .next { s with ok := false, inFlight := none }) ∧
  (∀ v : Word64, passesInputCheck v → (20 < (decompose v).2 ↔ 2 ^ 73 ≤ binary64Value v)) ∧
  (decompose 0x444B1AE4D6E2EF50#64).2 = 17 ∧ (decompose 0x4480F0CF064DD592#64).2 = 21

/-- R98 and R145: a negative or non-finite input records DTOA_INPUT and changes nothing else, whatever `fc` is. That OK
keeps its value is the model's reading where R31 says otherwise (notes/assumptions/10.md). -/
def Obligations.DtoaInputFaultChangesNothing : Prop :=
  ∀ (s : State) (fc : Nat), s.v.getLsbD 63 = true ∨ (s.v.extractLsb' 52 11).toNat = 0x7FF →
    exec (.dtoa fc) s = .next { s with fault := some (s.fault.getD .dtoaInput), inFlight := none }

/-- R96 and D22: the result of an accepted DTOA is a function of `V` and `fc` alone. -/
def Obligations.DtoaReadsOnlyItsInput : Prop :=
  ∀ (s s' : State) (fc : Nat), s.v = s'.v → dtoaAccepts s.v fc →
    ∃ t t', exec (.dtoa fc) s = .next t ∧ exec (.dtoa fc) s' = .next t' ∧
      t.ok = t'.ok ∧ t.len = t'.len ∧ t.dp = t'.dp ∧ ∀ i ≤ t.len.toNat, t.bufAt i = t'.bufAt i

/-- R99 and R102: the decomposition of a pattern with its range for normals, and the regime table. -/
def Obligations.DecomposeAndRegimeTable : Prop :=
  (∀ v : Word64, v.toNat / 2 ^ 52 % 2 ^ 11 = 0 → decompose v = (v.toNat % 2 ^ 52, -1074)) ∧
  (∀ v : Word64, v.toNat / 2 ^ 52 % 2 ^ 11 ≠ 0 →
    decompose v = (v.toNat % 2 ^ 52 + 2 ^ 52, ((v.toNat / 2 ^ 52 % 2 ^ 11 : Nat) : Int) - 1075) ∧
    2 ^ 52 ≤ (decompose v).1 ∧ (decompose v).1 < 2 ^ 53) ∧
  (∀ e : Int, e ≤ 20 →
    (selectRegime e = .a ↔ 12 ≤ e) ∧ (selectRegime e = .b ↔ 0 ≤ e ∧ e ≤ 11) ∧
    (selectRegime e = .c ↔ -52 ≤ e ∧ e ≤ -1) ∧ (selectRegime e = .d ↔ -128 ≤ e ∧ e ≤ -53) ∧
    (selectRegime e = .e ↔ e < -128))

/-! ### The stages of DTOA -/

/-- R103 and R104: regime A splits `v` by 10^17, and its quotient has 3 to 5 digits. -/
def Obligations.RegimeASplitsBy10To17 : Prop :=
  ∀ (f : Nat) (e : Int), 2 ^ 52 ≤ f → f < 2 ^ 53 → 12 ≤ e → e ≤ 20 →
    f * 2 ^ e.toNat = (splitRegimeA f e).1 * 10 ^ 17 + (splitRegimeA f e).2 ∧
    (splitRegimeA f e).2 < 10 ^ 17 ∧ 184 ≤ (splitRegimeA f e).1 ∧ (splitRegimeA f e).1 ≤ 94447

/-- R122 to R125: FillDigits32 and FillDigits64 append the digits of their number without a leading zero,
FillDigits32FixedLength exactly `width` digits and FillDigits64FixedLength exactly 17. -/
def Obligations.EmittersWriteTheirNumber : Prop :=
  (∀ (n : Nat) (w : Work), n < 2 ^ 32 → w.digits.length ≤ 32 →
    ∃ ds, fillDigits32 n w = some { w with digits := w.digits ++ ds } ∧ (∀ b ∈ ds, isDigit b = true) ∧
      decimalNat ds = n ∧ ds.head? ≠ some 0x30#8 ∧ ds.length ≤ 10) ∧
  (∀ (n width : Nat) (w : Work), n < 10 ^ width → w.digits.length + width ≤ 42 →
    ∃ ds, fillDigits32FixedLength n width w = some { w with digits := w.digits ++ ds } ∧
      (∀ b ∈ ds, isDigit b = true) ∧ decimalNat ds = n ∧ ds.length = width) ∧
  (∀ (n : Nat) (w : Work), n < 2 ^ 64 → w.digits.length ≤ 22 →
    ∃ ds, fillDigits64 n w = some { w with digits := w.digits ++ ds } ∧ (∀ b ∈ ds, isDigit b = true) ∧
      decimalNat ds = n ∧ ds.head? ≠ some 0x30#8 ∧ ds.length ≤ 20) ∧
  (∀ (n : Nat) (w : Work), n < 10 ^ 17 → w.digits.length ≤ 25 →
    ∃ ds, fillDigits64FixedLength n w = some { w with digits := w.digits ++ ds } ∧
      (∀ b ∈ ds, isDigit b = true) ∧ decimalNat ds = n ∧ ds.length = 17)

/-- R128 and R130: neither fractional loop fails a check, the remainder stays below the binary point, and at most `fc`
digits are emitted. -/
def Obligations.FractionLoopsNeverFail : Prop :=
  (∀ (fc frac point : Nat) (w : Work), frac < 2 ^ 56 → point ≤ 64 → frac < 2 ^ point →
    w.digits.length + fc ≤ 42 →
    ∃ rest point' w', fractionLoop64 fc frac point w = some (rest, point', w') ∧ rest < 2 ^ point' ∧
      w'.digits.length + point' = w.digits.length + point ∧ point ≤ point' + fc) ∧
  (∀ (fc : Nat) (x : U128) (w : Work), x.toNat < 2 ^ 116 → fc ≤ 20 → w.digits.length + fc ≤ 42 →
    ∃ rest point' w', fractionLoop128 fc x 128 w = some (rest, point', w') ∧ rest.toNat < 2 ^ point' ∧
      w'.digits.length + point' = w.digits.length + 128 ∧ 128 ≤ point' + fc)

/-- R131: FillFractionals adds to the integer digits the fraction `frac × 2^e` rounded to `fc` places, halves up. -/
def Obligations.FillFractionalsRoundsHalfUp : Prop :=
  ∀ (frac : Nat) (e : Int) (fc : Nat) (w : Work),
    -128 ≤ e → e ≤ 0 → frac < 2 ^ (-e).toNat → frac < 2 ^ 53 → fc ≤ 20 →
    w.allDigits → w.digits.length ≤ 16 → w.dp = (w.digits.length : Int) →
    ∃ w', fillFractionals frac e fc w = some w' ∧ w'.allDigits ∧
      w'.value * 10 ^ fc = (⌊(w.value + (frac : ℚ) * 2 ^ e) * 10 ^ fc + 1 / 2⌋ : ℚ)

/-- R132 and R133: RoundUp adds one unit in the last place and leaves digits only; an empty buffer becomes "1". -/
def Obligations.RoundUpAddsOneUnit : Prop :=
  (∀ w : Work, w.allDigits → w.digits ≠ [] →
    (roundUp w).allDigits ∧ (roundUp w).digits.length = w.digits.length ∧
    (roundUp w).value = w.value + 10 ^ (w.dp - (w.digits.length : Int))) ∧
  (∀ w : Work, w.digits = [] → roundUp w = { digits := [0x31#8], dp := 1 })

/-- R134: TrimZeros keeps the value and leaves neither a leading nor a trailing zero. -/
def Obligations.TrimZerosKeepsTheValue : Prop :=
  ∀ w : Work, w.allDigits →
    (trimZeros w).value = w.value ∧ (trimZeros w).digits.head? ≠ some 0x30#8 ∧
    (trimZeros w).digits.getLast? ≠ some 0x30#8

/-- R135: the order of the two trims shows in neither the digits nor, after the rule for an empty result, the decimal
point. -/
def Obligations.TrimOrderDoesNotShow : Prop :=
  ∀ (w : Work) (fc : Nat),
    (trimZeros w).digits = (trimZerosLeadingFirst w).digits ∧
    (if (trimZeros w).digits = [] then -(fc : Int) else (trimZeros w).dp) =
      (if (trimZerosLeadingFirst w).digits = [] then -(fc : Int) else (trimZerosLeadingFirst w).dp)

/-! ### The host's accesses -/

/-- R40 and R42: what the host reads from a unit that is not busy; nothing changes. -/
def Obligations.IdleReadsReturnTheRegister : Prop :=
  ∀ (s : State) (rest : List Input), s.inFlight = none →
    (s.inputs = .read 0x00#8 :: rest →
      step s = .next { s with inputs := rest, readData := some (BitVec.ofNat 64 (s.a.toNat % 2 ^ 64)) }) ∧
    (s.inputs = .read 0x01#8 :: rest →
      step s = .next { s with inputs := rest, readData := some (BitVec.ofNat 64 (s.a.toNat / 2 ^ 64)) }) ∧
    (s.inputs = .read 0x02#8 :: rest → step s = .next { s with inputs := rest, readData := some s.m }) ∧
    (s.inputs = .read 0x03#8 :: rest → step s = .next { s with inputs := rest, readData := some s.v }) ∧
    (s.inputs = .read 0x04#8 :: rest →
      step s = .next { s with inputs := rest, readData := some (BitVec.ofNat 64 s.q.toNat) }) ∧
    (s.inputs = .read 0x05#8 :: rest →
      step s = .next { s with inputs := rest, readData := some (BitVec.ofNat 64 s.len.toNat) }) ∧
    (s.inputs = .read 0x06#8 :: rest →
      step s = .next { s with inputs := rest, readData := some (BitVec.ofInt 64 s.dp.toInt) }) ∧
    (s.inputs = .read 0x07#8 :: rest →
      step s = .next { s with inputs := rest, readData := some (BitVec.ofNat 64 s.statusWord.toNat) }) ∧
    (s.inputs = .read 0x08#8 :: rest → step s = .next { s with inputs := rest, readData := some 0#64 }) ∧
    (∀ i < 42, s.inputs = .read (BitVec.ofNat 8 (0x40 + i)) :: rest →
      step s = .next { s with inputs := rest, readData := some (BitVec.ofNat 64 (s.bufAt i).toNat) })

/-- R25 and R142: the fields of STATUS, its reserved bits and the ten cause codes. -/
def Obligations.StatusFieldsAndReservedBits : Prop :=
  ∀ s : State,
    s.statusWord.getLsbD 0 = s.inFlight.isSome ∧ s.statusWord.getLsbD 1 = s.fault.isSome ∧
    s.statusWord.getLsbD 2 = s.z ∧ s.statusWord.getLsbD 3 = s.bit ∧ s.statusWord.getLsbD 4 = s.ok ∧
    s.statusWord.extractLsb' 5 3 = 0#3 ∧
    (s.fault = none → s.statusWord.extractLsb' 8 4 = 0#4) ∧
    (∀ c, s.fault = some c → s.statusWord.extractLsb' 8 4 = c.code ∧ c.code ≠ 0#4) ∧
    s.statusWord.extractLsb' 12 20 = 0#20 ∧
    Cause.mulOvf.code = 0x1#4 ∧ Cause.shiftRange.code = 0x2#4 ∧ Cause.divQovf.code = 0x3#4 ∧
    Cause.divRange.code = 0x4#4 ∧ Cause.bitRange.code = 0x5#4 ∧ Cause.illegalCmd.code = 0x6#4 ∧
    Cause.busyViolation.code = 0x7#4 ∧ Cause.badAccess.code = 0x8#4 ∧ Cause.dtoaInput.code = 0x9#4 ∧
    Cause.dtoaInternal.code = 0xA#4

/-- R45: the accesses that record BAD_ACCESS and have no other effect (the word a read returns and the model's count of
draws apart), and the read of CMD that does not. -/
def Obligations.BadAccessesOnlyRecord : Prop :=
  (∀ (s : State) (r : Byte), unmapped r →
    ∃ d n, hostRead r s = { s with
      readData := some d, draws := n, fault := some (s.fault.getD .badAccess) }) ∧
  (∀ (s : State) (r : Byte) (d : Word64) (latency : Nat), s.inFlight = none → s.fault = none →
    (0x04 ≤ r.toNat ∧ r.toNat ≤ 0x07) ∨ 0x09 ≤ r.toNat →
    hostWrite r d latency s = { s with fault := some .badAccess }) ∧
  (∀ s : State, hostRead 0x08#8 s = { s with readData := some 0#64 }) ∧
  Cause.badAccess.code = 0x8#4

/-- R19, R20, R21 and R44: what the host's writes of the operand registers do. -/
def Obligations.OperandWritesLand : Prop :=
  ∀ (s : State) (d : Word64) (latency : Nat) (rest : List Input), s.inFlight = none → s.fault = none →
    (s.inputs = .write 0x00#8 d latency :: rest →
      step s = .next { s with
        inputs := rest, readData := none, a := BitVec.ofNat 128 (s.a.toNat / 2 ^ 64 * 2 ^ 64 + d.toNat) }) ∧
    (s.inputs = .write 0x01#8 d latency :: rest →
      step s = .next { s with
        inputs := rest, readData := none, a := BitVec.ofNat 128 (d.toNat * 2 ^ 64 + s.a.toNat % 2 ^ 64) }) ∧
    (s.inputs = .write 0x02#8 d latency :: rest →
      step s = .next { s with inputs := rest, readData := none, m := d }) ∧
    (s.inputs = .write 0x03#8 d latency :: rest →
      step s = .next { s with inputs := rest, readData := none, v := d })

/-- R74: the two writes that construct a U128, in either order, and LDA, which spells them. -/
def Obligations.ConstructInEitherOrder : Prop :=
  (∀ (hi lo : Word64) (n : Nat),
    (HostLine.lda hi lo).expand n = [.write 0x01#8 hi 0, .write 0x00#8 lo 0]) ∧
  (∀ (s : State) (hi lo : Word64) (m n : Nat), s.inFlight = none → s.fault = none →
    hostWrite 0x00#8 lo n (hostWrite 0x01#8 hi m s) =
      { s with a := BitVec.ofNat 128 (hi.toNat * 2 ^ 64 + lo.toNat) } ∧
    hostWrite 0x01#8 hi m (hostWrite 0x00#8 lo n s) =
      { s with a := BitVec.ofNat 128 (hi.toNat * 2 ^ 64 + lo.toNat) }) ∧
  (hostWrite 0x00#8 0x2#64 0 (hostWrite 0x01#8 0x1#64 0 State.reset)).a = 0x00000000000000010000000000000002#128

/-- R44 and R146: a write while BUSY = 1 records BUSY_VIOLATION and is dropped; a write while FAULT = 1 (and BUSY = 0)
is dropped without a record. Counting the busy accesses in the state is the model's choice
(notes/assumptions/2.md). -/
def Obligations.DroppedWrites : Prop :=
  (∀ (s : State) (i : Instr) (n : Nat) (r : Byte) (d : Word64) (latency : Nat) (rest : List Input),
    s.inFlight = some { cmd := i, left := n + 2 } → s.inputs = .write r d latency :: rest →
    step s = .next { s with
      inputs := rest, readData := none, fault := some (s.fault.getD .busyViolation),
      inFlight := some { cmd := i, left := n + 1 } }) ∧
  (∀ (s : State) (r : Byte) (d : Word64) (latency : Nat) (rest : List Input),
    s.inFlight = none → s.fault ≠ none → s.inputs = .write r d latency :: rest →
    step s = .next { s with inputs := rest, readData := none })

/-- R43 and R167: reads while a command is in progress. Outside the command's row of R35 they return
the register's value, extended as R40 says, and change nothing; inside they return some word and change nothing (but the
model's count of draws, notes/assumptions/7.md); and STATUS has its other fields right. -/
def Obligations.ReadsWhileBusy : Prop :=
  ∀ (s : State) (f : InFlight), s.inFlight = some f →
    hostRead 0x02#8 s = { s with readData := some s.m } ∧
    hostRead 0x03#8 s = { s with readData := some s.v } ∧
    hostRead 0x08#8 s = { s with readData := some 0#64 } ∧
    (f.cmd ≠ .mul → (∀ k, f.cmd ≠ .shf k) → (∀ p, f.cmd ≠ .divp2 p) →
      hostRead 0x00#8 s = { s with readData := some (BitVec.ofNat 64 (s.a.toNat % 2 ^ 64)) } ∧
      hostRead 0x01#8 s = { s with readData := some (BitVec.ofNat 64 (s.a.toNat / 2 ^ 64)) }) ∧
    ((∀ p, f.cmd ≠ .divp2 p) →
      hostRead 0x04#8 s = { s with readData := some (BitVec.ofNat 64 s.q.toNat) }) ∧
    ((∀ fc, f.cmd ≠ .dtoa fc) →
      hostRead 0x05#8 s = { s with readData := some (BitVec.ofNat 64 s.len.toNat) } ∧
      hostRead 0x06#8 s = { s with readData := some (BitVec.ofInt 64 s.dp.toInt) } ∧
      ∀ i < 42, hostRead (BitVec.ofNat 8 (0x40 + i)) s =
        { s with readData := some (BitVec.ofNat 64 (s.bufAt i).toNat) }) ∧
    (∀ r : Byte,
      ((r = 0x00#8 ∨ r = 0x01#8) ∧ (f.cmd = .mul ∨ (∃ k, f.cmd = .shf k) ∨ ∃ p, f.cmd = .divp2 p)) ∨
      (r = 0x04#8 ∧ ∃ p, f.cmd = .divp2 p) ∨
      ((r = 0x05#8 ∨ r = 0x06#8 ∨ (0x40 ≤ r.toNat ∧ r.toNat ≤ 0x69)) ∧ ∃ fc, f.cmd = .dtoa fc) ∨
      (r = 0x07#8 ∧ (f.cmd = .isz ∨ (∃ n, f.cmd = .bitat n) ∨ ∃ fc, f.cmd = .dtoa fc)) →
      ∃ d, hostRead r s = { s with readData := some d, draws := s.draws + 1 }) ∧
    (∃ d, (hostRead 0x07#8 s).readData = some d ∧ d.getLsbD 0 = true ∧ d.getLsbD 1 = s.fault.isSome ∧
      d.extractLsb' 8 4 = s.causeField ∧ d.extractLsb' 5 3 = 0#3 ∧ d.extractLsb' 12 52 = 0#52 ∧
      ((∀ n, f.cmd ≠ .bitat n) → d.getLsbD 3 = s.bit) ∧ (f.cmd ≠ .isz → d.getLsbD 2 = s.z) ∧
      ((∀ n, f.cmd ≠ .dtoa n) → d.getLsbD 4 = s.ok))

/-! ### Faults, reset and the lifecycle -/

/-- R162, R163 and R36: reset at any time, also during a command, gives every register its reset value, and no command
is in progress and no fault recorded after it. -/
def Obligations.ResetGivesTheResetState : Prop :=
  ∀ (s : State) (rest : List Input), s.inputs = .reset :: rest →
    ∃ t, step s = .next t ∧
      t.a = 0 ∧ t.m = 0 ∧ t.v = 0 ∧ t.q = 0 ∧ t.len = 0 ∧ t.dp = 0 ∧ t.buf = Vector.replicate 42 0x00#8 ∧
      t.z = false ∧ t.bit = false ∧ t.ok = false ∧ t.fault = none ∧ t.inFlight = none ∧ t.statusWord = 0#32

/-- R143 and R33: the first fault stays recorded until reset. -/
def Obligations.FirstFaultIsKeptUntilReset : Prop :=
  ∀ (s t : State) (c : Cause), s.fault = some c → step s = .next t →
    t.fault = some c ∨ ∃ rest, s.inputs = .reset :: rest

/-- R146: an idle unit with FAULT = 1 starts no command and changes no register until reset. -/
def Obligations.FaultedUnitIsFrozen : Prop :=
  ∀ (s t : State), s.fault ≠ none → s.inFlight = none → (∀ rest, s.inputs ≠ .reset :: rest) → step s = .next t →
    t.inFlight = none ∧ s.sameRegisters t

/-- R142, R144 and R45: which event raises which fault, and when. -/
def Obligations.EachFaultHasItsOwnOrigin : Prop :=
  ∀ (s t : State) (c : Cause), s.fault = none → step s = .next t → t.fault = some c →
    (c = .busyViolation → s.inFlight ≠ none ∧ ∃ r d n rest, s.inputs = .write r d n :: rest) ∧
    (c = .illegalCmd → t.inFlight = none ∧ ∃ d n rest, s.inputs = .write 0x08#8 d n :: rest ∧
      (d.toNat / 2 ^ 32 ≠ 0 ∨ ∃ e, decode (d.extractLsb' 0 32) = .error e)) ∧
    (c = .badAccess → ∃ r rest, (s.inputs = .read r :: rest ∧ unmapped r) ∨
      ∃ d n, s.inputs = .write r d n :: rest ∧ ((0x04 ≤ r.toNat ∧ r.toNat ≤ 0x07) ∨ 0x09 ≤ r.toNat)) ∧
    (c ≠ .busyViolation → c ≠ .illegalCmd → c ≠ .badAccess →
      t.inFlight = none ∧ ∃ i, s.completing i ∧
        (c = .mulOvf → i = .mul ∧ 2 ^ 128 ≤ s.a.toNat * s.m.toNat) ∧
        (c = .shiftRange → ∃ k, i = .shf k ∧ (k < -64 ∨ 64 < k)) ∧
        (c = .divQovf → ∃ p, i = .divp2 p ∧ p ≤ 127 ∧ 2 ^ 32 ≤ s.a.toNat / 2 ^ p) ∧
        (c = .divRange → ∃ p, i = .divp2 p ∧ 127 < p) ∧
        (c = .bitRange → ∃ pos, i = .bitat pos ∧ 127 < pos) ∧
        (c = .dtoaInput → ∃ fc, i = .dtoa fc ∧ ¬passesInputCheck s.v) ∧
        (c = .dtoaInternal → ∃ fc, i = .dtoa fc ∧ passesInputCheck s.v))

/-- R35: a command changes only its write set, BUSY and the fault record. -/
def Obligations.CommandsWriteOnlyTheirWriteSet : Prop :=
  ∀ (i : Instr) (s : State), ∃ t, exec i s = .next t ∧
    t.m = s.m ∧ t.v = s.v ∧ t.inFlight = none ∧ t.inputs = s.inputs ∧ t.readData = s.readData ∧
    (i ≠ .mul → (∀ k, i ≠ .shf k) → (∀ p, i ≠ .divp2 p) → t.a = s.a) ∧
    ((∀ p, i ≠ .divp2 p) → t.q = s.q) ∧
    ((∀ pos, i ≠ .bitat pos) → t.bit = s.bit) ∧
    (i ≠ .isz → t.z = s.z) ∧
    ((∀ fc, i ≠ .dtoa fc) → t.ok = s.ok ∧ t.len = s.len ∧ t.dp = s.dp ∧ t.buf = s.buf) ∧
    (s.fault ≠ none ∨ i = .nop ∨ i = .isz → t.fault = s.fault)

/-- R65 and R66: while a command is in progress no access changes a register; only the count of accesses, the
model's choice (notes/assumptions/2.md), goes on. -/
def Obligations.BusyUnitHoldsItsRegisters : Prop :=
  ∀ (s : State) (i : Instr) (n : Nat) (x : Input) (rest : List Input),
    s.inFlight = some { cmd := i, left := n + 2 } → s.inputs = x :: rest → x.isAccess = true →
    ∃ t, step s = .next t ∧ t.inFlight = some { cmd := i, left := n + 1 } ∧ s.sameRegisters t

/-- R65 and R173: a command is in progress for its latency in host accesses, and then it has completed: the state is the
one that its execution gives on the registers as they stood. Counting the latency in the state is the model's choice (notes/assumptions/2.md). -/
def Obligations.CommandCompletesAfterItsLatency : Prop :=
  ∀ (n : Nat) (s : State) (i : Instr),
    s.inFlight = some { cmd := i, left := n + 1 } → n + 1 ≤ s.inputs.length →
    (s.inputs.take (n + 1)).all Input.isAccess = true →
    (∀ k ≤ n, ∃ t, Host.Core.run Sys2Proof.core k s = .next t ∧
      t.inFlight = some { cmd := i, left := n + 1 - k } ∧ s.sameRegisters t) ∧
    ∃ u t, Host.Core.run Sys2Proof.core (n + 1) s = .next t ∧ s.sameRegisters u ∧ exec i u = .next t ∧
      t.inFlight = none

/-- R68 and R173: a WAIT ends, one read after the completion it waits for, in the state the command's execution gives on
the registers as they stood, and the word it read last has BUSY = 0. A WAIT as one input is the model's choice (notes/assumptions/17.md). -/
def Obligations.WaitEndsAfterTheCommand : Prop :=
  (∀ (n : Nat) (s : State) (i : Instr) (rest : List Input),
    s.inFlight = some { cmd := i, left := n + 1 } → s.inputs = .wait :: rest →
    ∃ u t d, s.sameRegisters u ∧ u.fault = s.fault ∧ exec i u = .next t ∧
      Host.Core.run Sys2Proof.core (n + 2) s = .next { t with inputs := rest, readData := some d } ∧
      t.inFlight = none ∧ d.getLsbD 0 = false) ∧
  (∀ (s : State) (rest : List Input), s.inFlight = none → s.inputs = .wait :: rest →
    ∃ d, step s = .next { s with inputs := rest, readData := some d } ∧ d.getLsbD 0 = false)

/-- R166: a host that waits after every command never causes a BUSY_VIOLATION, and goes on waiting. The host's accesses
are the model's input (notes/assumptions/1.md, 17.md). -/
def Obligations.WaitingHostNeverViolatesBusy : Prop :=
  ∀ s t : State, s.hostWaits → step s = .next t →
    t.hostWaits ∧ (s.fault ≠ some .busyViolation → t.fault ≠ some .busyViolation)

/-- The reset state is one that every run stays among (R36). -/
def Obligations.InvariantHoldsAtReset : Prop := State.reset.Inv

/-- R23, R24, R115 to R117 and R65: every step keeps the invariant of the result registers and of the command in
progress, whose count of busy accesses is the model's choice (notes/assumptions/2.md). -/
def Obligations.EveryStepKeepsTheInvariant : Prop :=
  ∀ s t : State, s.Inv → step s = .next t → t.Inv

/-- R158: a step of one instance changes no other, every instance starts from its own reset, and a step keeps the number
by which an instance's UNSPECIFIED values are its own. That number, and a system as a list of states, are the model's choices (notes/assumptions/14.md). -/
def Obligations.InstancesAreIndependent : Prop :=
  (∀ (sys : System) (n : Nat) (s t : State), sys[n]? = some s → step s = .next t →
    ∃ sys', System.stepUnit n sys = .next sys' ∧ sys'[n]? = some t ∧ sys'.length = sys.length ∧
      ∀ m, m ≠ n → sys'[m]? = sys[m]?) ∧
  (∀ (units n : Nat), n < units → (System.reset units)[n]? = some { State.reset with unitNo := n }) ∧
  (∀ s t : State, step s = .next t → t.unitNo = s.unitNo)
end

