-- ==== Sys2Proof/Laws/State.lean ====
section
/-! SUPPORT. One lemma per field per update of State, so that no proof unfolds a record update. -/

namespace Sys2Proof.Machine

@[simp] theorem State.setA_a (x : U128) (s : State) : (s.setA x).a = x := rfl
@[simp] theorem State.setA_m (x : U128) (s : State) : (s.setA x).m = s.m := rfl
@[simp] theorem State.setA_v (x : U128) (s : State) : (s.setA x).v = s.v := rfl
@[simp] theorem State.setA_q (x : U128) (s : State) : (s.setA x).q = s.q := rfl
@[simp] theorem State.setA_len (x : U128) (s : State) : (s.setA x).len = s.len := rfl
@[simp] theorem State.setA_dp (x : U128) (s : State) : (s.setA x).dp = s.dp := rfl
@[simp] theorem State.setA_buf (x : U128) (s : State) : (s.setA x).buf = s.buf := rfl
@[simp] theorem State.setA_z (x : U128) (s : State) : (s.setA x).z = s.z := rfl
@[simp] theorem State.setA_bit (x : U128) (s : State) : (s.setA x).bit = s.bit := rfl
@[simp] theorem State.setA_ok (x : U128) (s : State) : (s.setA x).ok = s.ok := rfl
@[simp] theorem State.setA_fault (x : U128) (s : State) : (s.setA x).fault = s.fault := rfl
@[simp] theorem State.setA_inFlight (x : U128) (s : State) : (s.setA x).inFlight = s.inFlight := rfl
@[simp] theorem State.setA_inputs (x : U128) (s : State) : (s.setA x).inputs = s.inputs := rfl
@[simp] theorem State.setA_readData (x : U128) (s : State) : (s.setA x).readData = s.readData := rfl
@[simp] theorem State.setA_draws (x : U128) (s : State) : (s.setA x).draws = s.draws := rfl
@[simp] theorem State.setA_unitNo (x : U128) (s : State) : (s.setA x).unitNo = s.unitNo := rfl

@[simp] theorem State.setALo_a (d : Word64) (s : State) : (s.setALo d).a = s.a.extractLsb' 64 64 ++ d := rfl
@[simp] theorem State.setALo_m (d : Word64) (s : State) : (s.setALo d).m = s.m := rfl
@[simp] theorem State.setALo_v (d : Word64) (s : State) : (s.setALo d).v = s.v := rfl
@[simp] theorem State.setALo_q (d : Word64) (s : State) : (s.setALo d).q = s.q := rfl
@[simp] theorem State.setALo_len (d : Word64) (s : State) : (s.setALo d).len = s.len := rfl
@[simp] theorem State.setALo_dp (d : Word64) (s : State) : (s.setALo d).dp = s.dp := rfl
@[simp] theorem State.setALo_buf (d : Word64) (s : State) : (s.setALo d).buf = s.buf := rfl
@[simp] theorem State.setALo_z (d : Word64) (s : State) : (s.setALo d).z = s.z := rfl
@[simp] theorem State.setALo_bit (d : Word64) (s : State) : (s.setALo d).bit = s.bit := rfl
@[simp] theorem State.setALo_ok (d : Word64) (s : State) : (s.setALo d).ok = s.ok := rfl
@[simp] theorem State.setALo_fault (d : Word64) (s : State) : (s.setALo d).fault = s.fault := rfl
@[simp] theorem State.setALo_inFlight (d : Word64) (s : State) : (s.setALo d).inFlight = s.inFlight := rfl
@[simp] theorem State.setALo_inputs (d : Word64) (s : State) : (s.setALo d).inputs = s.inputs := rfl
@[simp] theorem State.setALo_readData (d : Word64) (s : State) : (s.setALo d).readData = s.readData := rfl
@[simp] theorem State.setALo_draws (d : Word64) (s : State) : (s.setALo d).draws = s.draws := rfl
@[simp] theorem State.setALo_unitNo (d : Word64) (s : State) : (s.setALo d).unitNo = s.unitNo := rfl

@[simp] theorem State.setAHi_a (d : Word64) (s : State) : (s.setAHi d).a = d ++ s.a.extractLsb' 0 64 := rfl
@[simp] theorem State.setAHi_m (d : Word64) (s : State) : (s.setAHi d).m = s.m := rfl
@[simp] theorem State.setAHi_v (d : Word64) (s : State) : (s.setAHi d).v = s.v := rfl
@[simp] theorem State.setAHi_q (d : Word64) (s : State) : (s.setAHi d).q = s.q := rfl
@[simp] theorem State.setAHi_len (d : Word64) (s : State) : (s.setAHi d).len = s.len := rfl
@[simp] theorem State.setAHi_dp (d : Word64) (s : State) : (s.setAHi d).dp = s.dp := rfl
@[simp] theorem State.setAHi_buf (d : Word64) (s : State) : (s.setAHi d).buf = s.buf := rfl
@[simp] theorem State.setAHi_z (d : Word64) (s : State) : (s.setAHi d).z = s.z := rfl
@[simp] theorem State.setAHi_bit (d : Word64) (s : State) : (s.setAHi d).bit = s.bit := rfl
@[simp] theorem State.setAHi_ok (d : Word64) (s : State) : (s.setAHi d).ok = s.ok := rfl
@[simp] theorem State.setAHi_fault (d : Word64) (s : State) : (s.setAHi d).fault = s.fault := rfl
@[simp] theorem State.setAHi_inFlight (d : Word64) (s : State) : (s.setAHi d).inFlight = s.inFlight := rfl
@[simp] theorem State.setAHi_inputs (d : Word64) (s : State) : (s.setAHi d).inputs = s.inputs := rfl
@[simp] theorem State.setAHi_readData (d : Word64) (s : State) : (s.setAHi d).readData = s.readData := rfl
@[simp] theorem State.setAHi_draws (d : Word64) (s : State) : (s.setAHi d).draws = s.draws := rfl
@[simp] theorem State.setAHi_unitNo (d : Word64) (s : State) : (s.setAHi d).unitNo = s.unitNo := rfl

@[simp] theorem State.setM_a (d : Word64) (s : State) : (s.setM d).a = s.a := rfl
@[simp] theorem State.setM_m (d : Word64) (s : State) : (s.setM d).m = d := rfl
@[simp] theorem State.setM_v (d : Word64) (s : State) : (s.setM d).v = s.v := rfl
@[simp] theorem State.setM_q (d : Word64) (s : State) : (s.setM d).q = s.q := rfl
@[simp] theorem State.setM_len (d : Word64) (s : State) : (s.setM d).len = s.len := rfl
@[simp] theorem State.setM_dp (d : Word64) (s : State) : (s.setM d).dp = s.dp := rfl
@[simp] theorem State.setM_buf (d : Word64) (s : State) : (s.setM d).buf = s.buf := rfl
@[simp] theorem State.setM_z (d : Word64) (s : State) : (s.setM d).z = s.z := rfl
@[simp] theorem State.setM_bit (d : Word64) (s : State) : (s.setM d).bit = s.bit := rfl
@[simp] theorem State.setM_ok (d : Word64) (s : State) : (s.setM d).ok = s.ok := rfl
@[simp] theorem State.setM_fault (d : Word64) (s : State) : (s.setM d).fault = s.fault := rfl
@[simp] theorem State.setM_inFlight (d : Word64) (s : State) : (s.setM d).inFlight = s.inFlight := rfl
@[simp] theorem State.setM_inputs (d : Word64) (s : State) : (s.setM d).inputs = s.inputs := rfl
@[simp] theorem State.setM_readData (d : Word64) (s : State) : (s.setM d).readData = s.readData := rfl
@[simp] theorem State.setM_draws (d : Word64) (s : State) : (s.setM d).draws = s.draws := rfl
@[simp] theorem State.setM_unitNo (d : Word64) (s : State) : (s.setM d).unitNo = s.unitNo := rfl

@[simp] theorem State.setV_a (d : Word64) (s : State) : (s.setV d).a = s.a := rfl
@[simp] theorem State.setV_m (d : Word64) (s : State) : (s.setV d).m = s.m := rfl
@[simp] theorem State.setV_v (d : Word64) (s : State) : (s.setV d).v = d := rfl
@[simp] theorem State.setV_q (d : Word64) (s : State) : (s.setV d).q = s.q := rfl
@[simp] theorem State.setV_len (d : Word64) (s : State) : (s.setV d).len = s.len := rfl
@[simp] theorem State.setV_dp (d : Word64) (s : State) : (s.setV d).dp = s.dp := rfl
@[simp] theorem State.setV_buf (d : Word64) (s : State) : (s.setV d).buf = s.buf := rfl
@[simp] theorem State.setV_z (d : Word64) (s : State) : (s.setV d).z = s.z := rfl
@[simp] theorem State.setV_bit (d : Word64) (s : State) : (s.setV d).bit = s.bit := rfl
@[simp] theorem State.setV_ok (d : Word64) (s : State) : (s.setV d).ok = s.ok := rfl
@[simp] theorem State.setV_fault (d : Word64) (s : State) : (s.setV d).fault = s.fault := rfl
@[simp] theorem State.setV_inFlight (d : Word64) (s : State) : (s.setV d).inFlight = s.inFlight := rfl
@[simp] theorem State.setV_inputs (d : Word64) (s : State) : (s.setV d).inputs = s.inputs := rfl
@[simp] theorem State.setV_readData (d : Word64) (s : State) : (s.setV d).readData = s.readData := rfl
@[simp] theorem State.setV_draws (d : Word64) (s : State) : (s.setV d).draws = s.draws := rfl
@[simp] theorem State.setV_unitNo (d : Word64) (s : State) : (s.setV d).unitNo = s.unitNo := rfl

@[simp] theorem State.setQ_a (x : Word32) (s : State) : (s.setQ x).a = s.a := rfl
@[simp] theorem State.setQ_m (x : Word32) (s : State) : (s.setQ x).m = s.m := rfl
@[simp] theorem State.setQ_v (x : Word32) (s : State) : (s.setQ x).v = s.v := rfl
@[simp] theorem State.setQ_q (x : Word32) (s : State) : (s.setQ x).q = x := rfl
@[simp] theorem State.setQ_len (x : Word32) (s : State) : (s.setQ x).len = s.len := rfl
@[simp] theorem State.setQ_dp (x : Word32) (s : State) : (s.setQ x).dp = s.dp := rfl
@[simp] theorem State.setQ_buf (x : Word32) (s : State) : (s.setQ x).buf = s.buf := rfl
@[simp] theorem State.setQ_z (x : Word32) (s : State) : (s.setQ x).z = s.z := rfl
@[simp] theorem State.setQ_bit (x : Word32) (s : State) : (s.setQ x).bit = s.bit := rfl
@[simp] theorem State.setQ_ok (x : Word32) (s : State) : (s.setQ x).ok = s.ok := rfl
@[simp] theorem State.setQ_fault (x : Word32) (s : State) : (s.setQ x).fault = s.fault := rfl
@[simp] theorem State.setQ_inFlight (x : Word32) (s : State) : (s.setQ x).inFlight = s.inFlight := rfl
@[simp] theorem State.setQ_inputs (x : Word32) (s : State) : (s.setQ x).inputs = s.inputs := rfl
@[simp] theorem State.setQ_readData (x : Word32) (s : State) : (s.setQ x).readData = s.readData := rfl
@[simp] theorem State.setQ_draws (x : Word32) (s : State) : (s.setQ x).draws = s.draws := rfl
@[simp] theorem State.setQ_unitNo (x : Word32) (s : State) : (s.setQ x).unitNo = s.unitNo := rfl

@[simp] theorem State.setZ_a (b : Bool) (s : State) : (s.setZ b).a = s.a := rfl
@[simp] theorem State.setZ_m (b : Bool) (s : State) : (s.setZ b).m = s.m := rfl
@[simp] theorem State.setZ_v (b : Bool) (s : State) : (s.setZ b).v = s.v := rfl
@[simp] theorem State.setZ_q (b : Bool) (s : State) : (s.setZ b).q = s.q := rfl
@[simp] theorem State.setZ_len (b : Bool) (s : State) : (s.setZ b).len = s.len := rfl
@[simp] theorem State.setZ_dp (b : Bool) (s : State) : (s.setZ b).dp = s.dp := rfl
@[simp] theorem State.setZ_buf (b : Bool) (s : State) : (s.setZ b).buf = s.buf := rfl
@[simp] theorem State.setZ_z (b : Bool) (s : State) : (s.setZ b).z = b := rfl
@[simp] theorem State.setZ_bit (b : Bool) (s : State) : (s.setZ b).bit = s.bit := rfl
@[simp] theorem State.setZ_ok (b : Bool) (s : State) : (s.setZ b).ok = s.ok := rfl
@[simp] theorem State.setZ_fault (b : Bool) (s : State) : (s.setZ b).fault = s.fault := rfl
@[simp] theorem State.setZ_inFlight (b : Bool) (s : State) : (s.setZ b).inFlight = s.inFlight := rfl
@[simp] theorem State.setZ_inputs (b : Bool) (s : State) : (s.setZ b).inputs = s.inputs := rfl
@[simp] theorem State.setZ_readData (b : Bool) (s : State) : (s.setZ b).readData = s.readData := rfl
@[simp] theorem State.setZ_draws (b : Bool) (s : State) : (s.setZ b).draws = s.draws := rfl
@[simp] theorem State.setZ_unitNo (b : Bool) (s : State) : (s.setZ b).unitNo = s.unitNo := rfl

@[simp] theorem State.setBit_a (b : Bool) (s : State) : (s.setBit b).a = s.a := rfl
@[simp] theorem State.setBit_m (b : Bool) (s : State) : (s.setBit b).m = s.m := rfl
@[simp] theorem State.setBit_v (b : Bool) (s : State) : (s.setBit b).v = s.v := rfl
@[simp] theorem State.setBit_q (b : Bool) (s : State) : (s.setBit b).q = s.q := rfl
@[simp] theorem State.setBit_len (b : Bool) (s : State) : (s.setBit b).len = s.len := rfl
@[simp] theorem State.setBit_dp (b : Bool) (s : State) : (s.setBit b).dp = s.dp := rfl
@[simp] theorem State.setBit_buf (b : Bool) (s : State) : (s.setBit b).buf = s.buf := rfl
@[simp] theorem State.setBit_z (b : Bool) (s : State) : (s.setBit b).z = s.z := rfl
@[simp] theorem State.setBit_bit (b : Bool) (s : State) : (s.setBit b).bit = b := rfl
@[simp] theorem State.setBit_ok (b : Bool) (s : State) : (s.setBit b).ok = s.ok := rfl
@[simp] theorem State.setBit_fault (b : Bool) (s : State) : (s.setBit b).fault = s.fault := rfl
@[simp] theorem State.setBit_inFlight (b : Bool) (s : State) : (s.setBit b).inFlight = s.inFlight := rfl
@[simp] theorem State.setBit_inputs (b : Bool) (s : State) : (s.setBit b).inputs = s.inputs := rfl
@[simp] theorem State.setBit_readData (b : Bool) (s : State) : (s.setBit b).readData = s.readData := rfl
@[simp] theorem State.setBit_draws (b : Bool) (s : State) : (s.setBit b).draws = s.draws := rfl
@[simp] theorem State.setBit_unitNo (b : Bool) (s : State) : (s.setBit b).unitNo = s.unitNo := rfl

@[simp] theorem State.setOk_a (b : Bool) (s : State) : (s.setOk b).a = s.a := rfl
@[simp] theorem State.setOk_m (b : Bool) (s : State) : (s.setOk b).m = s.m := rfl
@[simp] theorem State.setOk_v (b : Bool) (s : State) : (s.setOk b).v = s.v := rfl
@[simp] theorem State.setOk_q (b : Bool) (s : State) : (s.setOk b).q = s.q := rfl
@[simp] theorem State.setOk_len (b : Bool) (s : State) : (s.setOk b).len = s.len := rfl
@[simp] theorem State.setOk_dp (b : Bool) (s : State) : (s.setOk b).dp = s.dp := rfl
@[simp] theorem State.setOk_buf (b : Bool) (s : State) : (s.setOk b).buf = s.buf := rfl
@[simp] theorem State.setOk_z (b : Bool) (s : State) : (s.setOk b).z = s.z := rfl
@[simp] theorem State.setOk_bit (b : Bool) (s : State) : (s.setOk b).bit = s.bit := rfl
@[simp] theorem State.setOk_ok (b : Bool) (s : State) : (s.setOk b).ok = b := rfl
@[simp] theorem State.setOk_fault (b : Bool) (s : State) : (s.setOk b).fault = s.fault := rfl
@[simp] theorem State.setOk_inFlight (b : Bool) (s : State) : (s.setOk b).inFlight = s.inFlight := rfl
@[simp] theorem State.setOk_inputs (b : Bool) (s : State) : (s.setOk b).inputs = s.inputs := rfl
@[simp] theorem State.setOk_readData (b : Bool) (s : State) : (s.setOk b).readData = s.readData := rfl
@[simp] theorem State.setOk_draws (b : Bool) (s : State) : (s.setOk b).draws = s.draws := rfl
@[simp] theorem State.setOk_unitNo (b : Bool) (s : State) : (s.setOk b).unitNo = s.unitNo := rfl

@[simp] theorem State.setResult_a (n d : Word32) (b : Vector Byte 42) (s : State) : (s.setResult n d b).a = s.a := rfl
@[simp] theorem State.setResult_m (n d : Word32) (b : Vector Byte 42) (s : State) : (s.setResult n d b).m = s.m := rfl
@[simp] theorem State.setResult_v (n d : Word32) (b : Vector Byte 42) (s : State) : (s.setResult n d b).v = s.v := rfl
@[simp] theorem State.setResult_q (n d : Word32) (b : Vector Byte 42) (s : State) : (s.setResult n d b).q = s.q := rfl
@[simp] theorem State.setResult_len (n d : Word32) (b : Vector Byte 42) (s : State) : (s.setResult n d b).len = n := rfl
@[simp] theorem State.setResult_dp (n d : Word32) (b : Vector Byte 42) (s : State) : (s.setResult n d b).dp = d := rfl
@[simp] theorem State.setResult_buf (n d : Word32) (b : Vector Byte 42) (s : State) : (s.setResult n d b).buf = b := rfl
@[simp] theorem State.setResult_z (n d : Word32) (b : Vector Byte 42) (s : State) : (s.setResult n d b).z = s.z := rfl
@[simp] theorem State.setResult_bit (n d : Word32) (b : Vector Byte 42) (s : State) : (s.setResult n d b).bit = s.bit := rfl
@[simp] theorem State.setResult_ok (n d : Word32) (b : Vector Byte 42) (s : State) : (s.setResult n d b).ok = s.ok := rfl
@[simp] theorem State.setResult_fault (n d : Word32) (b : Vector Byte 42) (s : State) : (s.setResult n d b).fault = s.fault := rfl
@[simp] theorem State.setResult_inFlight (n d : Word32) (b : Vector Byte 42) (s : State) : (s.setResult n d b).inFlight = s.inFlight := rfl
@[simp] theorem State.setResult_inputs (n d : Word32) (b : Vector Byte 42) (s : State) : (s.setResult n d b).inputs = s.inputs := rfl
@[simp] theorem State.setResult_readData (n d : Word32) (b : Vector Byte 42) (s : State) : (s.setResult n d b).readData = s.readData := rfl
@[simp] theorem State.setResult_draws (n d : Word32) (b : Vector Byte 42) (s : State) : (s.setResult n d b).draws = s.draws := rfl
@[simp] theorem State.setResult_unitNo (n d : Word32) (b : Vector Byte 42) (s : State) : (s.setResult n d b).unitNo = s.unitNo := rfl

@[simp] theorem State.setInFlight_a (f : Option InFlight) (s : State) : (s.setInFlight f).a = s.a := rfl
@[simp] theorem State.setInFlight_m (f : Option InFlight) (s : State) : (s.setInFlight f).m = s.m := rfl
@[simp] theorem State.setInFlight_v (f : Option InFlight) (s : State) : (s.setInFlight f).v = s.v := rfl
@[simp] theorem State.setInFlight_q (f : Option InFlight) (s : State) : (s.setInFlight f).q = s.q := rfl
@[simp] theorem State.setInFlight_len (f : Option InFlight) (s : State) : (s.setInFlight f).len = s.len := rfl
@[simp] theorem State.setInFlight_dp (f : Option InFlight) (s : State) : (s.setInFlight f).dp = s.dp := rfl
@[simp] theorem State.setInFlight_buf (f : Option InFlight) (s : State) : (s.setInFlight f).buf = s.buf := rfl
@[simp] theorem State.setInFlight_z (f : Option InFlight) (s : State) : (s.setInFlight f).z = s.z := rfl
@[simp] theorem State.setInFlight_bit (f : Option InFlight) (s : State) : (s.setInFlight f).bit = s.bit := rfl
@[simp] theorem State.setInFlight_ok (f : Option InFlight) (s : State) : (s.setInFlight f).ok = s.ok := rfl
@[simp] theorem State.setInFlight_fault (f : Option InFlight) (s : State) : (s.setInFlight f).fault = s.fault := rfl
@[simp] theorem State.setInFlight_inFlight (f : Option InFlight) (s : State) : (s.setInFlight f).inFlight = f := rfl
@[simp] theorem State.setInFlight_inputs (f : Option InFlight) (s : State) : (s.setInFlight f).inputs = s.inputs := rfl
@[simp] theorem State.setInFlight_readData (f : Option InFlight) (s : State) : (s.setInFlight f).readData = s.readData := rfl
@[simp] theorem State.setInFlight_draws (f : Option InFlight) (s : State) : (s.setInFlight f).draws = s.draws := rfl
@[simp] theorem State.setInFlight_unitNo (f : Option InFlight) (s : State) : (s.setInFlight f).unitNo = s.unitNo := rfl

@[simp] theorem State.setInputs_a (l : List Input) (s : State) : (s.setInputs l).a = s.a := rfl
@[simp] theorem State.setInputs_m (l : List Input) (s : State) : (s.setInputs l).m = s.m := rfl
@[simp] theorem State.setInputs_v (l : List Input) (s : State) : (s.setInputs l).v = s.v := rfl
@[simp] theorem State.setInputs_q (l : List Input) (s : State) : (s.setInputs l).q = s.q := rfl
@[simp] theorem State.setInputs_len (l : List Input) (s : State) : (s.setInputs l).len = s.len := rfl
@[simp] theorem State.setInputs_dp (l : List Input) (s : State) : (s.setInputs l).dp = s.dp := rfl
@[simp] theorem State.setInputs_buf (l : List Input) (s : State) : (s.setInputs l).buf = s.buf := rfl
@[simp] theorem State.setInputs_z (l : List Input) (s : State) : (s.setInputs l).z = s.z := rfl
@[simp] theorem State.setInputs_bit (l : List Input) (s : State) : (s.setInputs l).bit = s.bit := rfl
@[simp] theorem State.setInputs_ok (l : List Input) (s : State) : (s.setInputs l).ok = s.ok := rfl
@[simp] theorem State.setInputs_fault (l : List Input) (s : State) : (s.setInputs l).fault = s.fault := rfl
@[simp] theorem State.setInputs_inFlight (l : List Input) (s : State) : (s.setInputs l).inFlight = s.inFlight := rfl
@[simp] theorem State.setInputs_inputs (l : List Input) (s : State) : (s.setInputs l).inputs = l := rfl
@[simp] theorem State.setInputs_readData (l : List Input) (s : State) : (s.setInputs l).readData = s.readData := rfl
@[simp] theorem State.setInputs_draws (l : List Input) (s : State) : (s.setInputs l).draws = s.draws := rfl
@[simp] theorem State.setInputs_unitNo (l : List Input) (s : State) : (s.setInputs l).unitNo = s.unitNo := rfl

@[simp] theorem State.setReadData_a (d : Option Word64) (s : State) : (s.setReadData d).a = s.a := rfl
@[simp] theorem State.setReadData_m (d : Option Word64) (s : State) : (s.setReadData d).m = s.m := rfl
@[simp] theorem State.setReadData_v (d : Option Word64) (s : State) : (s.setReadData d).v = s.v := rfl
@[simp] theorem State.setReadData_q (d : Option Word64) (s : State) : (s.setReadData d).q = s.q := rfl
@[simp] theorem State.setReadData_len (d : Option Word64) (s : State) : (s.setReadData d).len = s.len := rfl
@[simp] theorem State.setReadData_dp (d : Option Word64) (s : State) : (s.setReadData d).dp = s.dp := rfl
@[simp] theorem State.setReadData_buf (d : Option Word64) (s : State) : (s.setReadData d).buf = s.buf := rfl
@[simp] theorem State.setReadData_z (d : Option Word64) (s : State) : (s.setReadData d).z = s.z := rfl
@[simp] theorem State.setReadData_bit (d : Option Word64) (s : State) : (s.setReadData d).bit = s.bit := rfl
@[simp] theorem State.setReadData_ok (d : Option Word64) (s : State) : (s.setReadData d).ok = s.ok := rfl
@[simp] theorem State.setReadData_fault (d : Option Word64) (s : State) : (s.setReadData d).fault = s.fault := rfl
@[simp] theorem State.setReadData_inFlight (d : Option Word64) (s : State) : (s.setReadData d).inFlight = s.inFlight := rfl
@[simp] theorem State.setReadData_inputs (d : Option Word64) (s : State) : (s.setReadData d).inputs = s.inputs := rfl
@[simp] theorem State.setReadData_readData (d : Option Word64) (s : State) : (s.setReadData d).readData = d := rfl
@[simp] theorem State.setReadData_draws (d : Option Word64) (s : State) : (s.setReadData d).draws = s.draws := rfl
@[simp] theorem State.setReadData_unitNo (d : Option Word64) (s : State) : (s.setReadData d).unitNo = s.unitNo := rfl

@[simp] theorem State.countDraw_a (s : State) : s.countDraw.a = s.a := rfl
@[simp] theorem State.countDraw_m (s : State) : s.countDraw.m = s.m := rfl
@[simp] theorem State.countDraw_v (s : State) : s.countDraw.v = s.v := rfl
@[simp] theorem State.countDraw_q (s : State) : s.countDraw.q = s.q := rfl
@[simp] theorem State.countDraw_len (s : State) : s.countDraw.len = s.len := rfl
@[simp] theorem State.countDraw_dp (s : State) : s.countDraw.dp = s.dp := rfl
@[simp] theorem State.countDraw_buf (s : State) : s.countDraw.buf = s.buf := rfl
@[simp] theorem State.countDraw_z (s : State) : s.countDraw.z = s.z := rfl
@[simp] theorem State.countDraw_bit (s : State) : s.countDraw.bit = s.bit := rfl
@[simp] theorem State.countDraw_ok (s : State) : s.countDraw.ok = s.ok := rfl
@[simp] theorem State.countDraw_fault (s : State) : s.countDraw.fault = s.fault := rfl
@[simp] theorem State.countDraw_inFlight (s : State) : s.countDraw.inFlight = s.inFlight := rfl
@[simp] theorem State.countDraw_inputs (s : State) : s.countDraw.inputs = s.inputs := rfl
@[simp] theorem State.countDraw_readData (s : State) : s.countDraw.readData = s.readData := rfl
@[simp] theorem State.countDraw_draws (s : State) : s.countDraw.draws = s.draws + 1 := rfl
@[simp] theorem State.countDraw_unitNo (s : State) : s.countDraw.unitNo = s.unitNo := rfl

@[simp] theorem State.complete_a (s : State) : s.complete.a = s.a := rfl
@[simp] theorem State.complete_m (s : State) : s.complete.m = s.m := rfl
@[simp] theorem State.complete_v (s : State) : s.complete.v = s.v := rfl
@[simp] theorem State.complete_q (s : State) : s.complete.q = s.q := rfl
@[simp] theorem State.complete_len (s : State) : s.complete.len = s.len := rfl
@[simp] theorem State.complete_dp (s : State) : s.complete.dp = s.dp := rfl
@[simp] theorem State.complete_buf (s : State) : s.complete.buf = s.buf := rfl
@[simp] theorem State.complete_z (s : State) : s.complete.z = s.z := rfl
@[simp] theorem State.complete_bit (s : State) : s.complete.bit = s.bit := rfl
@[simp] theorem State.complete_ok (s : State) : s.complete.ok = s.ok := rfl
@[simp] theorem State.complete_fault (s : State) : s.complete.fault = s.fault := rfl
@[simp] theorem State.complete_inFlight (s : State) : s.complete.inFlight = none := rfl
@[simp] theorem State.complete_inputs (s : State) : s.complete.inputs = s.inputs := rfl
@[simp] theorem State.complete_readData (s : State) : s.complete.readData = s.readData := rfl
@[simp] theorem State.complete_draws (s : State) : s.complete.draws = s.draws := rfl
@[simp] theorem State.complete_unitNo (s : State) : s.complete.unitNo = s.unitNo := rfl

@[simp] theorem State.commitWork_a (w : Work) (s : State) : (s.commitWork w).a = s.a := rfl
@[simp] theorem State.commitWork_m (w : Work) (s : State) : (s.commitWork w).m = s.m := rfl
@[simp] theorem State.commitWork_v (w : Work) (s : State) : (s.commitWork w).v = s.v := rfl
@[simp] theorem State.commitWork_q (w : Work) (s : State) : (s.commitWork w).q = s.q := rfl
@[simp] theorem State.commitWork_len (w : Work) (s : State) : (s.commitWork w).len = BitVec.ofNat 32 w.digits.length := rfl
@[simp] theorem State.commitWork_dp (w : Work) (s : State) : (s.commitWork w).dp = BitVec.ofInt 32 w.dp := rfl
@[simp] theorem State.commitWork_buf (w : Work) (s : State) : (s.commitWork w).buf = Vector.ofFn fun i => committedByte w s.unitNo s.draws i.val := rfl
@[simp] theorem State.commitWork_z (w : Work) (s : State) : (s.commitWork w).z = s.z := rfl
@[simp] theorem State.commitWork_bit (w : Work) (s : State) : (s.commitWork w).bit = s.bit := rfl
@[simp] theorem State.commitWork_ok (w : Work) (s : State) : (s.commitWork w).ok = true := rfl
@[simp] theorem State.commitWork_fault (w : Work) (s : State) : (s.commitWork w).fault = s.fault := rfl
@[simp] theorem State.commitWork_inFlight (w : Work) (s : State) : (s.commitWork w).inFlight = s.inFlight := rfl
@[simp] theorem State.commitWork_inputs (w : Work) (s : State) : (s.commitWork w).inputs = s.inputs := rfl
@[simp] theorem State.commitWork_readData (w : Work) (s : State) : (s.commitWork w).readData = s.readData := rfl
@[simp] theorem State.commitWork_draws (w : Work) (s : State) : (s.commitWork w).draws = s.draws + 1 := rfl
@[simp] theorem State.commitWork_unitNo (w : Work) (s : State) : (s.commitWork w).unitNo = s.unitNo := rfl

@[simp] theorem State.unspecify_a (w : WriteSet) (s : State) : (s.unspecify w).a = if w.a then Config.freeA s.unitNo s.draws else s.a := rfl
@[simp] theorem State.unspecify_m (w : WriteSet) (s : State) : (s.unspecify w).m = s.m := rfl
@[simp] theorem State.unspecify_v (w : WriteSet) (s : State) : (s.unspecify w).v = s.v := rfl
@[simp] theorem State.unspecify_q (w : WriteSet) (s : State) : (s.unspecify w).q = if w.q then Config.freeQ s.unitNo s.draws else s.q := rfl
@[simp] theorem State.unspecify_len (w : WriteSet) (s : State) : (s.unspecify w).len = if w.result then Config.freeLen s.unitNo s.draws else s.len := rfl
@[simp] theorem State.unspecify_dp (w : WriteSet) (s : State) : (s.unspecify w).dp = if w.result then Config.freeDp s.unitNo s.draws else s.dp := rfl
@[simp] theorem State.unspecify_buf (w : WriteSet) (s : State) : (s.unspecify w).buf = if w.result then Vector.ofFn (fun i => Config.freeByte s.unitNo s.draws i.val) else s.buf := rfl
@[simp] theorem State.unspecify_z (w : WriteSet) (s : State) : (s.unspecify w).z = if w.z then Config.freeZ s.unitNo s.draws else s.z := rfl
@[simp] theorem State.unspecify_bit (w : WriteSet) (s : State) : (s.unspecify w).bit = if w.bit then Config.freeBit s.unitNo s.draws else s.bit := rfl
@[simp] theorem State.unspecify_ok (w : WriteSet) (s : State) : (s.unspecify w).ok = if w.ok then Config.freeOk s.unitNo s.draws else s.ok := rfl
@[simp] theorem State.unspecify_fault (w : WriteSet) (s : State) : (s.unspecify w).fault = s.fault := rfl
@[simp] theorem State.unspecify_inFlight (w : WriteSet) (s : State) : (s.unspecify w).inFlight = s.inFlight := rfl
@[simp] theorem State.unspecify_inputs (w : WriteSet) (s : State) : (s.unspecify w).inputs = s.inputs := rfl
@[simp] theorem State.unspecify_readData (w : WriteSet) (s : State) : (s.unspecify w).readData = s.readData := rfl
@[simp] theorem State.unspecify_draws (w : WriteSet) (s : State) : (s.unspecify w).draws = s.draws + 1 := rfl
@[simp] theorem State.unspecify_unitNo (w : WriteSet) (s : State) : (s.unspecify w).unitNo = s.unitNo := rfl

@[simp] theorem State.reset_a : State.reset.a = 0 := rfl
@[simp] theorem State.reset_m : State.reset.m = 0 := rfl
@[simp] theorem State.reset_v : State.reset.v = 0 := rfl
@[simp] theorem State.reset_q : State.reset.q = 0 := rfl
@[simp] theorem State.reset_len : State.reset.len = 0 := rfl
@[simp] theorem State.reset_dp : State.reset.dp = 0 := rfl
@[simp] theorem State.reset_buf : State.reset.buf = Vector.replicate 42 0 := rfl
@[simp] theorem State.reset_z : State.reset.z = false := rfl
@[simp] theorem State.reset_bit : State.reset.bit = false := rfl
@[simp] theorem State.reset_ok : State.reset.ok = false := rfl
@[simp] theorem State.reset_fault : State.reset.fault = none := rfl
@[simp] theorem State.reset_inFlight : State.reset.inFlight = none := rfl
@[simp] theorem State.reset_inputs : State.reset.inputs = [] := rfl
@[simp] theorem State.reset_readData : State.reset.readData = none := rfl
@[simp] theorem State.reset_draws : State.reset.draws = 0 := rfl
@[simp] theorem State.reset_unitNo : State.reset.unitNo = 0 := rfl

@[simp] theorem State.applyReset_a (s : State) : s.applyReset.a = 0 := rfl
@[simp] theorem State.applyReset_m (s : State) : s.applyReset.m = 0 := rfl
@[simp] theorem State.applyReset_v (s : State) : s.applyReset.v = 0 := rfl
@[simp] theorem State.applyReset_q (s : State) : s.applyReset.q = 0 := rfl
@[simp] theorem State.applyReset_len (s : State) : s.applyReset.len = 0 := rfl
@[simp] theorem State.applyReset_dp (s : State) : s.applyReset.dp = 0 := rfl
@[simp] theorem State.applyReset_buf (s : State) : s.applyReset.buf = Vector.replicate 42 0 := rfl
@[simp] theorem State.applyReset_z (s : State) : s.applyReset.z = false := rfl
@[simp] theorem State.applyReset_bit (s : State) : s.applyReset.bit = false := rfl
@[simp] theorem State.applyReset_ok (s : State) : s.applyReset.ok = false := rfl
@[simp] theorem State.applyReset_fault (s : State) : s.applyReset.fault = none := rfl
@[simp] theorem State.applyReset_inFlight (s : State) : s.applyReset.inFlight = none := rfl
@[simp] theorem State.applyReset_inputs (s : State) : s.applyReset.inputs = s.inputs := rfl
@[simp] theorem State.applyReset_readData (s : State) : s.applyReset.readData = none := rfl
@[simp] theorem State.applyReset_draws (s : State) : s.applyReset.draws = s.draws := rfl
@[simp] theorem State.applyReset_unitNo (s : State) : s.applyReset.unitNo = s.unitNo := rfl

@[simp] theorem State.raiseFault_fault (c : Cause) (s : State) : (s.raiseFault c).fault = some (s.fault.getD c) := by
  cases h : s.fault <;> simp [State.raiseFault, h]

/-- Taking an exception writes the fault record and nothing else. -/
theorem State.raiseFault_eq (c : Cause) (s : State) :
    s.raiseFault c = { s with fault := some (s.fault.getD c) } := by
  cases h : s.fault with
  | none => simp [State.raiseFault, h]
  | some d => cases s; simp_all [State.raiseFault]

@[simp] theorem State.raiseFault_a (c : Cause) (s : State) : (s.raiseFault c).a = s.a := by
  rw [State.raiseFault_eq]
@[simp] theorem State.raiseFault_m (c : Cause) (s : State) : (s.raiseFault c).m = s.m := by
  rw [State.raiseFault_eq]
@[simp] theorem State.raiseFault_v (c : Cause) (s : State) : (s.raiseFault c).v = s.v := by
  rw [State.raiseFault_eq]
@[simp] theorem State.raiseFault_q (c : Cause) (s : State) : (s.raiseFault c).q = s.q := by
  rw [State.raiseFault_eq]
@[simp] theorem State.raiseFault_len (c : Cause) (s : State) : (s.raiseFault c).len = s.len := by
  rw [State.raiseFault_eq]
@[simp] theorem State.raiseFault_dp (c : Cause) (s : State) : (s.raiseFault c).dp = s.dp := by
  rw [State.raiseFault_eq]
@[simp] theorem State.raiseFault_buf (c : Cause) (s : State) : (s.raiseFault c).buf = s.buf := by
  rw [State.raiseFault_eq]
@[simp] theorem State.raiseFault_z (c : Cause) (s : State) : (s.raiseFault c).z = s.z := by
  rw [State.raiseFault_eq]
@[simp] theorem State.raiseFault_bit (c : Cause) (s : State) : (s.raiseFault c).bit = s.bit := by
  rw [State.raiseFault_eq]
@[simp] theorem State.raiseFault_ok (c : Cause) (s : State) : (s.raiseFault c).ok = s.ok := by
  rw [State.raiseFault_eq]
@[simp] theorem State.raiseFault_inFlight (c : Cause) (s : State) : (s.raiseFault c).inFlight = s.inFlight := by
  rw [State.raiseFault_eq]
@[simp] theorem State.raiseFault_inputs (c : Cause) (s : State) : (s.raiseFault c).inputs = s.inputs := by
  rw [State.raiseFault_eq]
@[simp] theorem State.raiseFault_readData (c : Cause) (s : State) : (s.raiseFault c).readData = s.readData := by
  rw [State.raiseFault_eq]
@[simp] theorem State.raiseFault_draws (c : Cause) (s : State) : (s.raiseFault c).draws = s.draws := by
  rw [State.raiseFault_eq]
@[simp] theorem State.raiseFault_unitNo (c : Cause) (s : State) : (s.raiseFault c).unitNo = s.unitNo := by
  rw [State.raiseFault_eq]

end Sys2Proof.Machine
end

