-- ==== Sys2Proof/Laws/Digits.lean ====
section
/-! SUPPORT. What the pure functions and the digit stages can do: characters, appending, the commit of a result. -/

namespace Sys2Proof.Machine

/-! ### The U128 functions -/

@[simp] theorem mul128_fst (a : U128) (m : Word64) : (mul128 a m).1.toNat = a.toNat * m.toNat % 2 ^ 128 := by
  simp [mul128]

@[simp] theorem mul128_snd (a : U128) (m : Word64) : (mul128 a m).2 = decide (2 ^ 128 ≤ a.toNat * m.toNat) := rfl

theorem shift128_toNat_of_nonneg (a : U128) {k : Int} (h : 0 ≤ k) :
    (shift128 a k).toNat = a.toNat / 2 ^ k.toNat := by
  simp [shift128, h, Nat.shiftRight_eq_div_pow]

theorem shift128_toNat_of_neg (a : U128) {k : Int} (h : k < 0) :
    (shift128 a k).toNat = a.toNat * 2 ^ (-k).toNat % 2 ^ 128 := by
  simp [shift128, not_le.mpr h, Nat.shiftLeft_eq]

theorem divmodp2_eq (a : U128) (p : Nat) :
    divmodp2 a p =
      (BitVec.ofNat 32 (a.toNat / 2 ^ p), BitVec.ofNat 128 (a.toNat % 2 ^ p), decide (2 ^ 32 ≤ a.toNat / 2 ^ p)) := rfl

/-! ### Characters -/

theorem ch_toNat {d : Nat} (h : d ≤ 10) : (ch d).toNat = 0x30 + d := by
  simp [ch]; omega

@[simp] theorem digitOf_ch {d : Nat} (h : d ≤ 9) : digitOf (ch d) = d := by
  simp [digitOf, ch_toNat (by omega : d ≤ 10)]

@[simp] theorem isDigit_ch {d : Nat} (h : d ≤ 9) : isDigit (ch d) = true := by
  simp only [isDigit, ch_toNat (by omega : d ≤ 10), Bool.and_eq_true, decide_eq_true_eq]; omega

theorem isDigit_iff (b : Byte) : isDigit b = true ↔ ∃ d ≤ 9, b = ch d := by
  constructor
  · intro h
    simp only [isDigit, Bool.and_eq_true, decide_eq_true_eq] at h
    refine ⟨b.toNat - 0x30, by omega, ?_⟩
    apply BitVec.eq_of_toNat_eq
    rw [ch_toNat (by omega)]
    omega
  · rintro ⟨d, hd, rfl⟩; exact isDigit_ch hd

/-! ### Numbers written in digits -/

theorem decimalNat_append (ds es : List Byte) :
    decimalNat (ds ++ es) = decimalNat ds * 10 ^ es.length + decimalNat es := by
  induction es using List.reverseRecOn with
  | nil => simp [decimalNat]
  | append_singleton es b ih =>
    rw [← List.append_assoc]
    simp only [decimalNat, List.foldl_append, List.foldl_cons, List.foldl_nil, List.length_append, List.length_cons,
      List.length_nil] at *
    rw [ih]; ring

@[simp] theorem decimalNat_nil : decimalNat [] = 0 := rfl

@[simp] theorem decimalNat_singleton (b : Byte) : decimalNat [b] = digitOf b := by simp [decimalNat]

/-! ### Appending -/

theorem Work.append_eq_some_iff (ds : List Byte) (w w' : Work) :
    w.append ds = some w' ↔
      w.digits.length + ds.length ≤ 42 ∧ w' = { w with digits := w.digits ++ ds } := by
  unfold Work.append
  split
  · rename_i h; simp [show w.digits.length + ds.length ≤ 42 from h, eq_comm]
  · rename_i h; simp [show ¬ w.digits.length + ds.length ≤ 42 from h]

theorem Work.append_of_room {ds : List Byte} {w : Work} (h : w.digits.length + ds.length ≤ 42) :
    w.append ds = some { w with digits := w.digits ++ ds } := (Work.append_eq_some_iff _ _ _).2 ⟨h, rfl⟩

@[simp] theorem fixedDigits_length (width n : Nat) : (fixedDigits width n).length = width := by
  induction width generalizing n with
  | zero => rfl
  | succ k ih => simp [fixedDigits, ih]

theorem fixedDigits_isDigit (width n : Nat) : ∀ b ∈ fixedDigits width n, isDigit b = true := by
  induction width generalizing n with
  | zero => simp [fixedDigits]
  | succ k ih =>
    intro b hb
    simp only [fixedDigits, List.mem_cons] at hb
    rcases hb with rfl | hb
    · exact isDigit_ch (by omega)
    · exact ih _ _ hb

/-- The digits of FillDigits32FixedLength write the number modulo 10^width. -/
theorem decimalNat_fixedDigits (width n : Nat) : decimalNat (fixedDigits width n).reverse = n % 10 ^ width := by
  induction width generalizing n with
  | zero => simp [fixedDigits, Nat.mod_one]
  | succ k ih =>
    simp only [fixedDigits, List.reverse_cons]
    rw [decimalNat_append, ih, decimalNat_singleton, digitOf_ch (by omega), List.length_singleton, Nat.pow_succ' (n := k),
      Nat.mod_mul]
    ring

theorem variableDigits_length_le (k n : Nat) : (variableDigits k n).length ≤ k := by
  induction k generalizing n with
  | zero => simp [variableDigits]
  | succ k ih =>
    unfold variableDigits
    split
    · simp
    · simpa using ih _

theorem variableDigits_isDigit (k n : Nat) : ∀ b ∈ variableDigits k n, isDigit b = true := by
  induction k generalizing n with
  | zero => simp [variableDigits]
  | succ k ih =>
    intro b hb
    unfold variableDigits at hb
    split at hb
    · simp at hb
    · simp only [List.mem_cons] at hb
      rcases hb with rfl | hb
      · exact isDigit_ch (by omega)
      · exact ih _ _ hb

/-- With room for them, the digits of FillDigits32 write the number. -/
theorem decimalNat_variableDigits {k n : Nat} (h : n < 10 ^ k) : decimalNat (variableDigits k n).reverse = n := by
  induction k generalizing n with
  | zero => simp_all [variableDigits]
  | succ k ih =>
    unfold variableDigits
    split
    · simp_all
    · rw [List.reverse_cons, decimalNat_append, ih (by rw [pow_succ] at h; omega), decimalNat_singleton,
        digitOf_ch (by omega), List.length_singleton]
      omega

/-! ### The committed result -/

theorem State.commitWork_bufAt (w : Work) (s : State) {i : Nat} (h : i < 42) :
    (s.commitWork w).bufAt i = committedByte w s.unitNo s.draws i := by
  simp [State.bufAt, h]

theorem committedByte_digit (w : Work) (unitNo draw : Nat) {i : Nat} (h : i < w.digits.length) :
    committedByte w unitNo draw i = w.digits[i] := by
  simp [committedByte, h]

theorem committedByte_terminator (w : Work) (unitNo draw : Nat) :
    committedByte w unitNo draw w.digits.length = 0x00#8 := by
  simp [committedByte]

end Sys2Proof.Machine
end

