-- ==== Sys2Proof/Laws/Ops.lean ====
section
/-! SUPPORT. What each shared operation can do, said once: registers and their numbers, host accesses, acceptance,
completion and the step. -/

namespace Sys2Proof.Machine

open Host (Outcome)

/-! ### Registers -/

/-- Every register is named by its number. -/
theorem Reg.ofNumber_number (reg : Reg) : Reg.ofNumber reg.number = some reg := by
  cases reg with
  | buf i => revert i; decide
  | _ => rfl

/-- The unmapped numbers (R50). -/
theorem Reg.ofNumber_eq_none_iff (r : Byte) :
    Reg.ofNumber r = none ↔ (0x09 ≤ r.toNat ∧ r.toNat ≤ 0x3F) ∨ 0x6A ≤ r.toNat := by
  revert r; decide

/-- A register's number is the one that names it. -/
theorem Reg.number_of_ofNumber {r : Byte} {reg : Reg} (h : Reg.ofNumber r = some reg) : r = reg.number := by
  have key : ∀ r : Byte, ∀ reg ∈ Reg.ofNumber r, r = reg.number := by decide
  exact key r reg (by simp [h])

/-! ### Taking a fault and completing -/

@[simp] theorem State.raiseFault_of_faulted {s : State} {d : Cause} (c : Cause) (h : s.fault = some d) :
    s.raiseFault c = s := by
  simp [State.raiseFault, h]

@[simp] theorem State.busy_eq_false_iff (s : State) : s.busy = false ↔ s.inFlight = none := by
  simp [State.busy]

@[simp] theorem State.busy_eq_true_iff (s : State) : s.busy = true ↔ s.inFlight ≠ none := by
  cases h : s.inFlight <;> simp [State.busy, h]

@[simp] theorem State.faulted_eq_false_iff (s : State) : s.faulted = false ↔ s.fault = none := by
  simp [State.faulted]

@[simp] theorem State.faulted_eq_true_iff (s : State) : s.faulted = true ↔ s.fault ≠ none := by
  cases h : s.fault <;> simp [State.faulted, h]

/-! ### Host accesses -/

/-- A read changes nothing but the returned word, the count of draws, and the record of an unmapped number (R43,
R49). -/
theorem hostRead_cases (r : Byte) (s : State) :
    (Reg.ofNumber r = none ∧ hostRead r s = { s with
      fault := some (s.fault.getD .badAccess), readData := some (Config.freeData s.unitNo s.draws)
      draws := s.draws + 1 }) ∨
    (∃ reg, Reg.ofNumber r = some reg ∧ hostRead r s = { s with readData := some (s.view reg) }) ∨
    (∃ reg f, Reg.ofNumber r = some reg ∧ s.inFlight = some f ∧ reg.namesStateOf (writeSet f.cmd) = true ∧
      hostRead r s = { s with
        readData := some ((s.unspecify (writeSet f.cmd)).view reg), draws := s.draws + 1 }) := by
  unfold hostRead
  split
  · rename_i h
    refine .inl ⟨h, ?_⟩
    rw [badAccess, State.raiseFault_eq]
    rfl
  · rename_i reg h
    split
    · exact .inr (.inl ⟨reg, h, rfl⟩)
    · rename_i f hf
      split
      · rename_i hw
        exact .inr (.inr ⟨reg, f, h, hf, hw, rfl⟩)
      · exact .inr (.inl ⟨reg, h, rfl⟩)

@[simp] theorem hostRead_inFlight (r : Byte) (s : State) : (hostRead r s).inFlight = s.inFlight := by
  rcases hostRead_cases r s with ⟨-, h⟩ | ⟨_, -, h⟩ | ⟨_, _, -, -, -, h⟩ <;> rw [h]

@[simp] theorem hostRead_inputs (r : Byte) (s : State) : (hostRead r s).inputs = s.inputs := by
  rcases hostRead_cases r s with ⟨-, h⟩ | ⟨_, -, h⟩ | ⟨_, _, -, -, -, h⟩ <;> rw [h]

theorem hostRead_readData_isSome (r : Byte) (s : State) : (hostRead r s).readData.isSome = true := by
  rcases hostRead_cases r s with ⟨-, h⟩ | ⟨_, -, h⟩ | ⟨_, _, -, -, -, h⟩ <;> rw [h] <;> rfl

/-- A write while BUSY = 1 is dropped and recorded (R44). -/
theorem hostWrite_of_busy {s : State} {f : InFlight} (r : Byte) (d : Word64) (latency : Nat)
    (h : s.inFlight = some f) : hostWrite r d latency s = s.raiseFault .busyViolation := by
  simp [hostWrite, State.busy, h]

/-- A write while FAULT = 1 and BUSY = 0 is dropped (R146). -/
theorem hostWrite_of_faulted {s : State} {c : Cause} (r : Byte) (d : Word64) (latency : Nat)
    (hi : s.inFlight = none) (h : s.fault = some c) : hostWrite r d latency s = s := by
  simp [hostWrite, State.busy, State.faulted, hi, h]

/-- What a write does to a unit that is neither busy nor faulted: it lands in an operand register, starts a command, or
records a fault and nothing else (R44). -/
theorem hostWrite_cases {s : State} (r : Byte) (d : Word64) (latency : Nat) (hi : s.inFlight = none)
    (hf : s.fault = none) :
    (r = 0x00#8 ∧ hostWrite r d latency s = s.setALo d) ∨
    (r = 0x01#8 ∧ hostWrite r d latency s = s.setAHi d) ∨
    (r = 0x02#8 ∧ hostWrite r d latency s = s.setM d) ∨
    (r = 0x03#8 ∧ hostWrite r d latency s = s.setV d) ∨
    (r = cmdNumber ∧ ∃ i, decode (d.extractLsb' 0 32) = .ok i ∧ d.extractLsb' 32 32 = 0#32 ∧
      hostWrite r d latency s = s.setInFlight (some { cmd := i, left := latency })) ∨
    (r = cmdNumber ∧ hostWrite r d latency s = s.raiseFault .illegalCmd) ∨
    (r ≠ cmdNumber ∧ hostWrite r d latency s = s.raiseFault .badAccess) := by
  have key : ∀ reg, Reg.ofNumber r = some reg → r = reg.number := fun reg => Reg.number_of_ofNumber
  have hcmd : Reg.ofNumber cmdNumber = some .cmd := rfl
  have hother : ∀ x, Reg.ofNumber r = x → x ≠ some .cmd → r ≠ cmdNumber := by
    rintro x rfl hx rfl
    exact hx hcmd
  simp only [hostWrite, State.busy, State.faulted, hi, hf, Option.isSome_none, Bool.false_eq_true, if_false]
  split
  · rename_i h; exact .inl ⟨key _ h, rfl⟩
  · rename_i h; exact .inr (.inl ⟨key _ h, rfl⟩)
  · rename_i h; exact .inr (.inr (.inl ⟨key _ h, rfl⟩))
  · rename_i h; exact .inr (.inr (.inr (.inl ⟨key _ h, rfl⟩)))
  · rename_i h
    have hr : r = cmdNumber := key _ h
    split
    · rename_i hd
      unfold commandWrite
      split
      · exact .inr (.inr (.inr (.inr (.inr (.inl ⟨hr, rfl⟩)))))
      · rename_i i hdec
        exact .inr (.inr (.inr (.inr (.inl ⟨hr, i, hdec, hd, rfl⟩))))
    · exact .inr (.inr (.inr (.inr (.inr (.inl ⟨hr, rfl⟩)))))
  all_goals
    rename_i h
    exact .inr (.inr (.inr (.inr (.inr (.inr ⟨hother _ h (by simp), rfl⟩)))))

/-! ### Completion and the step -/

@[simp] theorem State.countAccess_of_idle {s : State} (h : s.inFlight = none) : s.countAccess = s := by
  simp [State.countAccess, h]

theorem State.countAccess_of_busy {s : State} {f : InFlight} (h : s.inFlight = some f) :
    s.countAccess = s.setInFlight (some { f with left := f.left - 1 }) := by
  simp [State.countAccess, h]

theorem settle_of_idle {s : State} (h : s.inFlight = none) : settle s = .next s := by
  simp [settle, h]

theorem settle_of_due {s : State} {i : Instr} (h : s.inFlight = some { cmd := i, left := 0 }) :
    settle s = exec i s := by
  simp [settle, h]

theorem settle_of_pending {s : State} {i : Instr} {n : Nat} (h : s.inFlight = some { cmd := i, left := n + 1 }) :
    settle s = .next s := by
  simp [settle, h]

theorem step_of_input {s : State} {x : Input} {rest : List Input} (h : s.inputs = x :: rest) :
    step s = serve x ((s.setInputs rest).setReadData none) := by
  simp [step, turn, h]

theorem step_of_no_input_busy {s : State} {f : InFlight} (h : s.inputs = []) (hf : s.inFlight = some f) :
    step s = exec f.cmd (s.setReadData none) := by
  simp [step, turn, h, hf]

theorem step_of_no_input_idle {s : State} (h : s.inputs = []) (hf : s.inFlight = none) :
    step s = .next (s.setReadData none) := by
  simp [step, turn, h, hf]

@[simp] theorem State.countAccess_fault (s : State) : s.countAccess.fault = s.fault := by
  unfold State.countAccess; split <;> rfl

@[simp] theorem State.countAccess_inputs (s : State) : s.countAccess.inputs = s.inputs := by
  unfold State.countAccess; split <;> rfl

/-- Counting an access changes nothing but the command in progress. -/
theorem State.countAccess_eq (s : State) :
    s.countAccess = { s with inFlight := s.inFlight.map fun f => { f with left := f.left - 1 } } := by
  cases h : s.inFlight with
  | none => cases s; simp_all [State.countAccess]
  | some f => simp [State.countAccess, State.setInFlight, h]

/-- What settling can do: nothing, or run the command whose time has come. -/
theorem settle_cases {s t : State} (h : settle s = .next t) :
    (s.inFlight = none ∧ t = s) ∨
    (∃ i, s.inFlight = some { cmd := i, left := 0 } ∧ exec i s = .next t) ∨
    (∃ i n, s.inFlight = some { cmd := i, left := n + 1 } ∧ t = s) := by
  unfold settle at h
  split at h
  · exact .inr (.inl ⟨_, by assumption, h⟩)
  · cases h; exact .inr (.inr ⟨_, _, by assumption, rfl⟩)
  · cases h; exact .inl ⟨by assumption, rfl⟩

/-- One read of STATUS by a WAIT, which stays the next input exactly while the word has BUSY = 1. -/
theorem waitRead_cases (s : State) :
    ((hostRead statusNumber s).readBusy = true ∧
      waitRead s = (hostRead statusNumber s).setInputs (.wait :: s.inputs)) ∨
    ((hostRead statusNumber s).readBusy = false ∧ waitRead s = hostRead statusNumber s) := by
  unfold waitRead
  cases h : (hostRead statusNumber s).readBusy <;> simp [h]

/-- Bit 0 of the STATUS word is BUSY (R25). -/
theorem State.view_status_bit_zero (s : State) : (s.view .status).getLsbD 0 = s.busy := by
  change (s.statusWord.setWidth 64).getLsbD 0 = s.busy
  rw [BitVec.getLsbD_setWidth]
  unfold State.statusWord
  rw [BitVec.getLsbD_append, BitVec.getLsbD_append]
  cases s.busy <;> rfl

/-- While a command is in progress every read of STATUS returns BUSY = 1 (R25, R167). -/
theorem hostRead_status_readBusy_of_busy {s : State} {f : InFlight} (h : s.inFlight = some f) :
    (hostRead statusNumber s).readBusy = true := by
  have name : Reg.ofNumber statusNumber = some .status := rfl
  rcases hostRead_cases statusNumber s with ⟨h', -⟩ | ⟨reg, h', hh⟩ | ⟨reg, g, h', -, -, hh⟩
  · simp [name] at h'
  · obtain rfl : reg = .status := Option.some.inj (h'.symm.trans name)
    rw [hh]
    exact (State.view_status_bit_zero s).trans (by simp [h])
  · obtain rfl : reg = .status := Option.some.inj (h'.symm.trans name)
    rw [hh]
    exact (State.view_status_bit_zero _).trans (by simp [h])

/-- A WAIT goes on while a command is in progress. -/
theorem waitRead_of_busy {s : State} {f : InFlight} (h : s.inFlight = some f) :
    waitRead s = (hostRead statusNumber s).setInputs (.wait :: s.inputs) := by
  rcases waitRead_cases s with ⟨-, hw⟩ | ⟨hb, -⟩
  · exact hw
  · rw [hostRead_status_readBusy_of_busy h] at hb
    cases hb

/-- What every command leaves alone, and what it may record: at its end BUSY is 0, the host's inputs, the word last read
and the number of the instance stand, `M` and `V` stand, and a first fault is one that commands raise (R144). -/
theorem exec_next_facts {i : Instr} {s t : State} (h : exec i s = .next t) :
    t.inFlight = none ∧ t.inputs = s.inputs ∧ t.readData = s.readData ∧ t.unitNo = s.unitNo ∧ t.m = s.m ∧
    t.v = s.v ∧
    (t.fault = s.fault ∨
      ∃ c, c ≠ .illegalCmd ∧ c ≠ .busyViolation ∧ c ≠ .badAccess ∧ t.fault = some (s.fault.getD c)) := by
  cases i <;>
    simp only [exec, execNop, execMul, execShf, execDivp2, execBitat, execIsz, execDtoa] at h <;>
    (repeat' split at h) <;> cases h <;>
    refine ⟨rfl, by simp, by simp, by simp, by simp, by simp, ?_⟩ <;>
    simp only [State.complete_fault, State.setA_fault, State.setQ_fault, State.setZ_fault, State.setBit_fault,
      State.setOk_fault, State.commitWork_fault, State.raiseFault_fault, State.unspecify_fault, true_or] <;>
    exact .inr ⟨_, by decide, by decide, by decide, rfl⟩

/-- Every command completes: `exec` answers a next state on every state (R66, R173). -/
theorem exec_answers_next (i : Instr) (s : State) : ∃ t, exec i s = .next t := by
  cases i with
  | nop => exact ⟨_, rfl⟩
  | mul => simp only [exec, execMul]; split <;> exact ⟨_, rfl⟩
  | shf k => simp only [exec, execShf]; split <;> exact ⟨_, rfl⟩
  | divp2 p => simp only [exec, execDivp2]; split <;> [split; skip] <;> exact ⟨_, rfl⟩
  | bitat pos => simp only [exec, execBitat]; split <;> exact ⟨_, rfl⟩
  | isz => exact ⟨_, rfl⟩
  | dtoa fc => simp only [exec, execDtoa]; split <;> exact ⟨_, rfl⟩

end Sys2Proof.Machine
end

