-- ==== Sys2Proof/Laws/PerInstr.lean ====
section
/-! SUPPORT. Statements about the syntax of every command, one lemma per constructor. -/

namespace Sys2Proof.Laws

/-! ### The fields of a command word -/

theorem commandWord_getLsbD (imm opc : Byte) (i : Nat) :
    (commandWord imm opc).getLsbD i = if i < 8 then opc.getLsbD i else imm.getLsbD (i - 8) := by
  change BitVec.getLsbD ((0#16 ++ imm) ++ opc) i = _
  rw [BitVec.getLsbD_append, BitVec.getLsbD_append]
  split
  · rfl
  · simpa using BitVec.lt_of_getLsbD

theorem rsvField_commandWord (imm opc : Byte) : rsvField (commandWord imm opc) = 0#16 := by
  apply BitVec.eq_of_getLsbD_eq
  intro i hi
  simp [rsvField, commandWord_getLsbD, show ¬ 16 + i < 8 by omega, BitVec.getLsbD_of_ge imm (16 + i - 8) (by omega)]

theorem immField_commandWord (imm opc : Byte) : immField (commandWord imm opc) = imm := by
  apply BitVec.eq_of_getLsbD_eq
  intro i hi
  simp [immField, commandWord_getLsbD, hi]

theorem opcField_commandWord (imm opc : Byte) : opcField (commandWord imm opc) = opc := by
  apply BitVec.eq_of_getLsbD_eq
  intro i hi
  simp [opcField, commandWord_getLsbD, hi]

/-- The word of a command has RSV = 0, its own IMM8 and its own OPC (R58, R60, R63). -/
def EncodedFields.Statement (i : Instr) : Prop :=
  rsvField (encode i) = 0#16 ∧ immField (encode i) = immediate i ∧ opcField (encode i) = opcode i

theorem EncodedFields.nop : EncodedFields.Statement .nop :=
  ⟨rsvField_commandWord _ _, immField_commandWord _ _, opcField_commandWord _ _⟩

theorem EncodedFields.mul : EncodedFields.Statement .mul :=
  ⟨rsvField_commandWord _ _, immField_commandWord _ _, opcField_commandWord _ _⟩

theorem EncodedFields.shf (k : Int) : EncodedFields.Statement (.shf k) :=
  ⟨rsvField_commandWord _ _, immField_commandWord _ _, opcField_commandWord _ _⟩

theorem EncodedFields.divp2 (p : Nat) : EncodedFields.Statement (.divp2 p) :=
  ⟨rsvField_commandWord _ _, immField_commandWord _ _, opcField_commandWord _ _⟩

theorem EncodedFields.bitat (pos : Nat) : EncodedFields.Statement (.bitat pos) :=
  ⟨rsvField_commandWord _ _, immField_commandWord _ _, opcField_commandWord _ _⟩

theorem EncodedFields.isz : EncodedFields.Statement .isz :=
  ⟨rsvField_commandWord _ _, immField_commandWord _ _, opcField_commandWord _ _⟩

theorem EncodedFields.dtoa (fc : Nat) : EncodedFields.Statement (.dtoa fc) :=
  ⟨rsvField_commandWord _ _, immField_commandWord _ _, opcField_commandWord _ _⟩

end Sys2Proof.Laws
end

