-- ==== Sys2Proof/Tests/Slice0.lean ====
section
/-! SUPPORT. Tests of the model on the spec's own examples (spec/95_test_vectors.md), the smoke tests of WellFormed, and
for every statement with hypotheses a witness that meets them. -/

namespace Sys2Proof.Tests

open Sys2Proof.Machine
open Host (Outcome)

/-! ### Helpers -/

/-- A unit after reset with inputs to serve. -/
def unit (l : List Input) : State := { State.reset with inputs := l }

/-- A unit with a value in `A`. -/
def withA (a : U128) : State := { State.reset with a := a }

/-- A unit with a value in `V`. -/
def withV (v : Word64) : State := { State.reset with v := v }

/-- The outcome is a next state with the property. -/
def nextHas (o : Outcome State Machine.Fault Refusal) (p : State → Bool) : Bool :=
  match o with
  | .next t => p t
  | .fault _ => false
  | .refused _ => false

/-- The result of a DTOA: LEN, DP and `BUF[0..LEN]`. -/
def result (s : State) : Nat × Int × List Nat :=
  (s.len.toNat, s.dp.toInt, (s.buf.toList.take (s.len.toNat + 1)).map BitVec.toNat)

/-- The value X of spec/95_test_vectors.md. -/
def x : U128 := 0x0123456789ABCDEFFEDCBA9876543210#128

/-! ### WellFormed: one ill-formed term for each check (R59, R63) -/

theorem test_wellFormed_refuses_shift_above : (Instr.shf 128).wellFormed = false := by decide
theorem test_wellFormed_refuses_shift_below : (Instr.shf (-129)).wellFormed = false := by decide
theorem test_wellFormed_refuses_power : (Instr.divp2 256).wellFormed = false := by decide
theorem test_wellFormed_refuses_position : (Instr.bitat 256).wellFormed = false := by decide
theorem test_wellFormed_refuses_count : (Instr.dtoa 256).wellFormed = false := by decide

/-! ### Decoding: words written out as RSV, IMM8, OPC (R58, R60) -/

theorem test_decode_nop : decode 0b00000000000000000000000000000000#32 = .ok .nop := by decide
theorem test_decode_mul : decode 0b00000000000000000000000000000001#32 = .ok .mul := by decide
theorem test_decode_shf : decode 0b00000000000000001100000000000010#32 = .ok (.shf (-64)) := by decide
theorem test_decode_divp2 : decode 0b00000000000000000111111100000011#32 = .ok (.divp2 127) := by decide
theorem test_decode_bitat : decode 0b00000000000000000111111000000100#32 = .ok (.bitat 126) := by decide
theorem test_decode_isz : decode 0b00000000000000000000000000000101#32 = .ok .isz := by decide
theorem test_decode_dtoa : decode 0b00000000000000000001010000010000#32 = .ok (.dtoa 20) := by decide

/-- The illegal words of L2.6. -/
theorem test_decode_refuses :
    decode 0x00000100#32 = .error .immediateNotZero ∧ decode 0x00010001#32 = .error .reservedBits ∧
    decode 0x00000006#32 = .error .reservedOpcode ∧ decode 0x0000000F#32 = .error .reservedOpcode ∧
    decode 0x00000011#32 = .error .reservedOpcode ∧ decode 0x000000FF#32 = .error .reservedOpcode ∧
    decode 0x00000105#32 = .error .immediateNotZero := by decide

theorem test_decodeTableWord : decodeTableWord 32 0x1410 = some (.dtoa 20) ∧ decodeTableWord 32 0x10001 = none := by
  decide

/-! ### The commands on the vectors of L2.1 to L2.7 -/

/-- L2.5: NOP changes nothing. -/
theorem test_nop : nextHas (exec .nop (withA 7)) (fun t => t == withA 7) = true := by decide

/-- L2.1: (2^64 − 1)^2. -/
theorem test_mul : nextHas (exec .mul { withA 0xFFFFFFFFFFFFFFFF#128 with m := 0xFFFFFFFFFFFFFFFF#64 })
    (fun t => t.a == 0xFFFFFFFFFFFFFFFE0000000000000001#128 && t.fault == none) = true := by decide

/-- L2.1: 2^96 × 2^32 is exactly 2^128. -/
theorem test_mul_overflow : nextHas (exec .mul { withA 0x1000000000000000000000000#128 with m := 0x100000000#64 })
    (fun t => t.fault == some .mulOvf && t.statusWord == 0x102#32) = true := by decide

/-- L2.2: X shifted left by 63. -/
theorem test_shf_left : nextHas (exec (.shf (-63)) (withA x))
    (fun t => t.a == 0xFF6E5D4C3B2A19080000000000000000#128) = true := by decide

/-- L2.2: X shifted right by 63, and the amount 65, which faults. -/
theorem test_shf_right : nextHas (exec (.shf 63) (withA x)) (fun t => t.a == 0x2468ACF13579BDF#128) = true ∧
    nextHas (exec (.shf 65) (withA x)) (fun t => t.a == x && t.statusWord == 0x202#32) = true := by decide

/-- L2.3: X divided by 2^100. -/
theorem test_divp2 : nextHas (exec (.divp2 100) (withA x))
    (fun t => t.q == 0x123456#32 && t.a == 0x0000000789ABCDEFFEDCBA9876543210#128) = true := by decide

/-- L2.3: a quotient of 2^32, and the power 128. -/
theorem test_divp2_faults :
    nextHas (exec (.divp2 95) (withA 0x80000000000000000000000000000000#128)) (fun t => t.statusWord == 0x302#32) =
      true ∧
    nextHas (exec (.divp2 128) (withA x)) (fun t => t.a == x && t.q == 0#32 && t.statusWord == 0x402#32) = true := by
  decide

/-- L2.4: bit 70 of X is 1. -/
theorem test_bitat : nextHas (exec (.bitat 70) (withA x)) (fun t => t.statusWord == 0x008#32) = true := by decide

/-- L2.4: bit 126 of 2^127 is 0, and the position 255 faults. -/
theorem test_bitat_range :
    nextHas (exec (.bitat 126) (withA 0x80000000000000000000000000000000#128)) (fun t => t.statusWord == 0#32) = true ∧
    nextHas (exec (.bitat 255) (withA x)) (fun t => t.statusWord == 0x502#32) = true := by decide

/-- L2.5: ISZ of 0 and of 2^64. -/
theorem test_isz : nextHas (exec .isz (withA 0)) (fun t => t.statusWord == 0x004#32) = true ∧
    nextHas (exec .isz { withA 0x10000000000000000#128 with z := true }) (fun t => t.statusWord == 0#32) = true := by
  decide

/-- L2.7: 9.96 rounds up into a new digit, and 0.1 with 20 digits. -/
theorem test_dtoa_rounds :
    nextHas (exec (.dtoa 1) (withV 0x4023EB851EB851EC#64)) (fun t => result t == (1, 2, [0x31, 0])) = true ∧
    nextHas (exec (.dtoa 20) (withV 0x3FB999999999999A#64)) (fun t => result t ==
      (20, 0, [0x31, 0x30, 0x30, 0x30, 0x30, 0x30, 0x30, 0x30, 0x30, 0x30, 0x30, 0x30, 0x30, 0x30, 0x30, 0x30, 0x30,
        0x35, 0x35, 0x35, 0])) = true := by decide

/-- L2.7: the largest accepted value, 2^−65 on the 128-bit path, 2^73 rejected, and −1.0 with `fc = 21` faulting. -/
theorem test_dtoa_regimes :
    nextHas (exec (.dtoa 0) (withV 0x447FFFFFFFFFFFFF#64)) (fun t => t.len == 22#32 && t.bufAt 21 == 0x36#8) = true ∧
    nextHas (exec (.dtoa 20) (withV 0x3BE0000000000000#64)) (fun t => result t == (1, -19, [0x33, 0])) = true ∧
    nextHas (exec (.dtoa 0) { withV 0x4480000000000000#64 with ok := true }) (fun t => t.statusWord == 0#32) = true ∧
    nextHas (exec (.dtoa 21) (withV 0xBFF0000000000000#64)) (fun t => t.statusWord == 0x902#32) = true := by decide

/-! ### The stages on the vectors of L2.10 -/

/-- "99", 2 becomes "10", 3; an empty buffer becomes "1", 1. -/
theorem test_roundUp :
    roundUp { digits := [ch 9, ch 9], dp := 2 } = { digits := [ch 1, ch 0], dp := 3 } ∧
    roundUp { digits := [], dp := -7 } = { digits := [ch 1], dp := 1 } := by decide

/-- "00100", 0 becomes "1", −2; "000", 5 becomes "", 5. -/
theorem test_trimZeros :
    trimZeros { digits := [ch 0, ch 0, ch 1, ch 0, ch 0], dp := 0 } = { digits := [ch 1], dp := -2 } ∧
    trimZeros { digits := [ch 0, ch 0, ch 0], dp := 5 } = { digits := [], dp := 5 } := by decide

/-- 10000000 and 2^64 − 1. -/
theorem test_fillDigits64 :
    fillDigits64 10000000 Work.entry =
      some { digits := [ch 1, ch 0, ch 0, ch 0, ch 0, ch 0, ch 0, ch 0], dp := 0 } ∧
    (fillDigits64 18446744073709551615 Work.entry).map (fun w => decimalNat w.digits) =
      some 18446744073709551615 := by decide

/-! ### The step, the host's accesses and its text -/

/-- The first command after reset: DTOA 5 on V = 0 gives OK = 1, LEN = 0, DP = −5 (R165). -/
theorem test_step_runs_first_command :
    nextHas (step (State.reset.withFetchWord 32 0x510)) (fun t =>
      t.ok && t.len == 0#32 && t.dp.toInt == -5 && t.inFlight == none && t.inputs == []) = true := by decide

/-- L2.6: `RD 0x3F` records BAD_ACCESS, `RD CMD` returns 0, `WR STATUS` records BAD_ACCESS. -/
theorem test_host_accesses :
    nextHas (step (unit [.read 0x3F#8])) (fun t => t.statusWord == 0x802#32) = true ∧
    nextHas (step (unit [.read 0x08#8])) (fun t => t.statusWord == 0#32 && t.readData == some 0#64) = true ∧
    nextHas (step (unit [.write 0x07#8 0#64 0])) (fun t => t.statusWord == 0x802#32) = true := by decide

/-- P6: with latency 1 the write of M while BUSY = 1 is dropped, and the MUL still completes. -/
theorem test_busy_hazard :
    nextHas (step { unit [.write 0x02#8 7#64 0] with
        a := 3, m := 5, inFlight := some { cmd := .mul, left := 1 } })
      (fun t => t.a == 15 && t.m == 5 && t.statusWord == 0x702#32) = true := by decide

/-- `SHF -64 ; left` is the command SHF −64; `SHF 200` and `NOP 1` are rejected (R67). -/
theorem test_text :
    readLine ['S', 'H', 'F', ' ', '-', '6', '4', ' ', ';', 'x'] = .ok [.command (.shf (-64))] ∧
    readLine ['S', 'H', 'F', ' ', '2', '0', '0'] = .error .outOfRange ∧
    readLine ['N', 'O', 'P', ' ', '1'] = .error .badLine ∧
    readLine ['W', 'R', ' ', 'M', ',', ' ', '0', 'x', '1', 'F'] = .ok [.wr 0x02#8 0x1F#64] := by decide

/-- A program that ends on a bare write to CMD ends with the command completed (R172), and RDDIG reads no number beyond
BUF[41]. -/
theorem test_program_end :
    (match driveSteps (fun _ => 3) 4 (HostRun.start [.wr 0x08#8 5#64]) State.reset with
      | .ended _ s => s.z && s.inFlight == none
      | _ => false) = true ∧
    (digitReads 4000000000).length = 42 := by decide

/-! ### Witnesses: concrete values that meet a statement's hypotheses, for each clause -/

theorem witness_EncodingFunctionGivesTheWords : ∃ (k l : Int) (p : Nat),
    (-128 ≤ k ∧ k ≤ 127 ∧ k = -128) ∧ (-128 ≤ l ∧ l ≤ 127 ∧ l = 127) ∧ p ≤ 255 ∧ p = 255 :=
  ⟨-128, 127, 255, by decide⟩

theorem witness_DecodeOfEncodeIsTheCommand :
    (Instr.shf (-128)).wellFormed = true ∧ (Instr.shf 127).wellFormed = true ∧ (Instr.dtoa 255).wellFormed = true ∧
    Instr.nop.wellFormed = true := by decide

theorem witness_EncodeOfDecodeIsTheWord : decode 0x00008002#32 = .ok (.shf (-128)) := by decide

theorem witness_LegalWordsMatchExactlyOneRow :
    decode 0x0000FF10#32 = .ok (.dtoa 255) ∧ decode 0x00000105#32 = .error .immediateNotZero := by decide

theorem witness_StepRunsTheDecodedCommand :
    (unit [.write 0x08#8 0x510#64 0]).inputs = .write 0x08#8 0x510#64 0 :: [] ∧
    (unit [.write 0x08#8 0x510#64 3]).inputs = .write 0x08#8 0x510#64 3 :: [] ∧
    (unit []).inFlight = none ∧ (unit []).fault = none ∧ (0x510#64).extractLsb' 32 32 = 0#32 ∧
    decode ((0x510#64).extractLsb' 0 32) = .ok (.dtoa 5) := by decide

/-- A unit with MUL in progress and one more busy access. -/
def lastBusy (l : List Input) : State := { unit l with a := 3, m := 5, inFlight := some { cmd := .mul, left := 1 } }

theorem witness_StepCompletesTheCommandInProgress :
    (lastBusy []).inFlight = some { cmd := .mul, left := 1 } ∧ (lastBusy []).inputs = [] ∧
    (lastBusy [.read 0x00#8]).inputs = .read 0x00#8 :: [] ∧ ¬unmapped 0x00#8 ∧ ¬unmapped 0x69#8 ∧
    (lastBusy [.read 0x6A#8]).inputs = .read 0x6A#8 :: [] ∧ unmapped 0x6A#8 ∧ unmapped 0x09#8 ∧
    (lastBusy [.wait]).inputs = .wait :: [] ∧
    (lastBusy [.write 0x02#8 7#64 0]).inputs = .write 0x02#8 7#64 0 :: [] := by
  unfold unmapped
  decide

theorem witness_IllegalWordStartsNothing :
    (unit [.write 0x08#8 0x100000001#64 0]).inputs = .write 0x08#8 0x100000001#64 0 :: [] ∧
    (0x100000001#64).toNat / 2 ^ 32 ≠ 0 ∧
    (unit [.write 0x08#8 0x100#64 0]).inputs = .write 0x08#8 0x100#64 0 :: [] ∧
    decode ((0x100#64).extractLsb' 0 32) = .error .immediateNotZero := by decide

theorem witness_IdleUnitKeepsItsStateAndASecondHostIsRefused :
    (unit []).inputs = [] ∧ (unit []).inFlight = none ∧ (unit [.secondHost]).inputs = .secondHost :: [] := by decide

theorem witness_MulWritesTheExactProduct :
    (0xFFFFFFFFFFFFFFFFFFFFFFFFFFFFFFFF#128).toNat * (1#64).toNat < 2 ^ 128 := by decide

theorem witness_ShfIsTheLogicalShift :
    ∃ k l : Int, (-64 ≤ k ∧ k ≤ 64 ∧ k = -64) ∧ (-64 ≤ l ∧ l ≤ 64 ∧ l = 64) := ⟨-64, 64, by decide⟩

theorem witness_Divp2WritesQuotientAndRemainder :
    127 ≤ 127 ∧ (0xFFFFFFFFFFFFFFFFFFFFFFFFFFFFFFFF#128).toNat / 2 ^ 127 < 2 ^ 32 ∧
    (0xFFFFFFFF000000000000000000003039#128).toNat / 2 ^ 96 < 2 ^ 32 := by decide

theorem witness_BitatWritesTheSelectedBit : ∃ pos : Nat, pos ≤ 127 ∧ pos = 127 := ⟨127, by decide⟩

theorem witness_ArithmeticOverflowsFault :
    2 ^ 128 ≤ (0x1000000000000000000000000#128).toNat * (0x100000000#64).toNat ∧
    2 ^ 32 ≤ (0x100000000#128).toNat / 2 ^ 0 := by decide

theorem witness_RangeFaultsOnlyRecord :
    ∃ (k l : Int) (p : Nat), (k < -64 ∧ k = -65) ∧ (64 < l ∧ l = 65) ∧ 127 < p ∧ p = 128 :=
  ⟨-65, 65, 128, by decide⟩

theorem witness_ShiftRoundTripHoldsWhenNoBitIsLost :
    ∃ k l : Int, (0 < k ∧ k < 64 ∧ k = 1) ∧ (0 < l ∧ l < 64 ∧ l = 63) := ⟨1, 63, by decide⟩

theorem witness_DivisionIdentity :
    divmodp2 x 100 = (0x123456#32, 0x0000000789ABCDEFFEDCBA9876543210#128, false) ∧
    divmodp2 (withA 0x100000000#128).a 0 = (0#32, 0#128, true) := by decide

theorem witness_ShiftMultiplyAndDivideAgree :
    (1#128).toNat < 2 ^ (128 - 63) ∧ BitVec.ofNat 64 (2 ^ 63) = 0x8000000000000000#64 ∧
    2 ^ (128 - 63) ≤ (0x20000000000000000#128).toNat := by decide

theorem witness_SchoolMultiplicationAgrees : (0xFFFFFFFF#64).toNat < 2 ^ 32 := by decide

theorem witness_HalfwiseFormsAgree :
    ∃ (k l : Int) (p : Nat), (-64 ≤ k ∧ k ≤ 64 ∧ k = -64) ∧ (-64 ≤ l ∧ l ≤ 64 ∧ l = 64) ∧ p ≤ 127 ∧ p = 127 :=
  ⟨-64, 64, 127, by decide⟩

/-- The largest accepted value with the largest accepted count, and the smallest value. -/
theorem accepts_boundaries : dtoaAccepts 0x447FFFFFFFFFFFFF#64 20 ∧ dtoaAccepts 0x0000000000000000#64 0 := by
  refine ⟨⟨⟨?_, ?_⟩, ?_, ?_⟩, ⟨⟨?_, ?_⟩, ?_, ?_⟩⟩ <;> decide

/-- One accepted value of every regime: 2^72, 2^52, 1.0, 0.5 and 2^−76, 2^−129. -/
theorem accepts_every_regime :
    dtoaAccepts 0x4470000000000000#64 3 ∧ dtoaAccepts 0x4330000000000000#64 0 ∧ dtoaAccepts 0x3FF0000000000000#64 20 ∧
    dtoaAccepts 0x3FE0000000000000#64 0 ∧ dtoaAccepts 0x3B30000000000000#64 20 ∧
    dtoaAccepts 0x37E0000000000000#64 20 := by
  refine ⟨⟨⟨?_, ?_⟩, ?_, ?_⟩, ⟨⟨?_, ?_⟩, ?_, ?_⟩, ⟨⟨?_, ?_⟩, ?_, ?_⟩, ⟨⟨?_, ?_⟩, ?_, ?_⟩, ⟨⟨?_, ?_⟩, ?_, ?_⟩,
    ⟨⟨?_, ?_⟩, ?_, ?_⟩⟩ <;> decide

theorem witness_DtoaCompletesOnAcceptedInput : dtoaAccepts (withV 0x447FFFFFFFFFFFFF#64).v 20 := accepts_boundaries.1

theorem witness_DtoaNeverFailsAnInternalCheck : dtoaAccepts (withV 0x0000000000000000#64).v 0 ∧
    ∃ t, exec (.dtoa 0) (withV 0x0000000000000000#64) = .next t := ⟨accepts_boundaries.2, _, rfl⟩

theorem witness_DtoaResultIsTrimmedDigits : dtoaAccepts (withV 0x447FFFFFFFFFFFFF#64).v 20 ∧
    nextHas (exec (.dtoa 20) (withV 0x447FFFFFFFFFFFFF#64)) (fun t => decide (1 ≤ t.len.toNat)) = true :=
  ⟨accepts_boundaries.1, by decide⟩

theorem witness_DtoaResultSize :
    (dtoaAccepts (withV 0x4470000000000000#64).v 3 ∧ (decompose 0x4470000000000000#64).2 = 20) ∧
    (dtoaAccepts (withV 0x4330000000000000#64).v 0 ∧ (decompose 0x4330000000000000#64).2 = 0) ∧
    (dtoaAccepts (withV 0x3FF0000000000000#64).v 20 ∧ (decompose 0x3FF0000000000000#64).2 = -52) ∧
    (dtoaAccepts (withV 0x3FE0000000000000#64).v 0 ∧ (decompose 0x3FE0000000000000#64).2 = -53) ∧
    (dtoaAccepts (withV 0x3B30000000000000#64).v 20 ∧ (decompose 0x3B30000000000000#64).2 = -128) ∧
    (dtoaAccepts (withV 0x37E0000000000000#64).v 20 ∧ (decompose 0x37E0000000000000#64).2 < -128) :=
  have h := accepts_every_regime
  ⟨⟨h.1, by decide⟩, ⟨h.2.1, by decide⟩, ⟨h.2.2.1, by decide⟩, ⟨h.2.2.2.1, by decide⟩, ⟨h.2.2.2.2.1, by decide⟩,
    ⟨h.2.2.2.2.2, by decide⟩⟩

/-- 0.5 lies halfway at `fc = 0`, and is a multiple of 1/10 at `fc = 1`. -/
theorem witness_DtoaRoundsToTheNearestDecimal :
    dtoaAccepts (withV 0x3FE0000000000000#64).v 0 ∧
    binary64Value 0x3FE0000000000000#64 = (((0 : ℤ) : ℚ) + 1 / 2) * 10 ^ (-((0 : Nat) : Int)) ∧
    dtoaAccepts (withV 0x3FE0000000000000#64).v 1 ∧
    binary64Value 0x3FE0000000000000#64 = ((5 : ℤ) : ℚ) * 10 ^ (-((1 : Nat) : Int)) := by
  have h : decompose 0x3FE0000000000000#64 = (2 ^ 52, -53) := by decide
  refine ⟨accepts_every_regime.2.2.2.1, ?_, ⟨⟨?_, ?_⟩, ?_, ?_⟩, ?_⟩
  all_goals first | decide | (simp only [binary64Value, h]; norm_num)

theorem witness_DtoaEmptyResultAndStableRejection :
    passesInputCheck (withV 0x4480000000000000#64).v ∧ (decompose 0x4480000000000000#64).2 = 21 ∧
    passesInputCheck (withV 0x0000000000000000#64).v := by
  refine ⟨⟨?_, ?_⟩, ?_, ?_, ?_⟩ <;> decide

theorem witness_DtoaDomainRejection :
    passesInputCheck (withV 0x4480000000000000#64).v ∧ 20 < (decompose 0x4480000000000000#64).2 ∧
    passesInputCheck (withV 0x3FF0000000000000#64).v ∧ 20 < 21 := by
  refine ⟨⟨?_, ?_⟩, ?_, ⟨?_, ?_⟩, ?_⟩ <;> decide

theorem witness_DtoaInputFaultChangesNothing :
    (withV 0x8000000000000000#64).v.getLsbD 63 = true ∧
    ((withV 0x7FF0000000000000#64).v.extractLsb' 52 11).toNat = 0x7FF := by decide

theorem witness_DtoaReadsOnlyItsInput :
    (withV 0x447FFFFFFFFFFFFF#64).v = { withV 0x447FFFFFFFFFFFFF#64 with a := 1, ok := true }.v ∧
    dtoaAccepts (withV 0x447FFFFFFFFFFFFF#64).v 20 := ⟨rfl, accepts_boundaries.1⟩

theorem witness_DecomposeAndRegimeTable :
    (0x000FFFFFFFFFFFFF#64).toNat / 2 ^ 52 % 2 ^ 11 = 0 ∧ (0x0010000000000000#64).toNat / 2 ^ 52 % 2 ^ 11 ≠ 0 ∧
    (20 : Int) ≤ 20 := by decide

theorem witness_RegimeASplitsBy10To17 :
    ∃ (f g : Nat) (e d : Int), (2 ^ 52 ≤ f ∧ f < 2 ^ 53 ∧ 12 ≤ e ∧ e ≤ 20 ∧ f = 2 ^ 52 ∧ e = 12) ∧
      (2 ^ 52 ≤ g ∧ g < 2 ^ 53 ∧ 12 ≤ d ∧ d ≤ 20 ∧ g = 2 ^ 53 - 1 ∧ d = 20) :=
  ⟨2 ^ 52, 2 ^ 53 - 1, 12, 20, by decide⟩

theorem witness_EmittersWriteTheirNumber :
    4294967295 < 2 ^ 32 ∧ (List.replicate 32 (ch 0)).length ≤ 32 ∧ 0 < 10 ^ 0 ∧
    (List.replicate 42 (ch 0)).length + 0 ≤ 42 ∧ 9999999 < 10 ^ 7 ∧ (List.replicate 35 (ch 0)).length + 7 ≤ 42 ∧
    18446744073709551615 < 2 ^ 64 ∧ (List.replicate 22 (ch 0)).length ≤ 22 ∧ 99999999999999999 < 10 ^ 17 ∧
    (List.replicate 25 (ch 0)).length ≤ 25 := by decide

theorem witness_FractionLoopsNeverFail :
    (2 ^ 56 - 1 < 2 ^ 56 ∧ 64 ≤ 64 ∧ 2 ^ 56 - 1 < 2 ^ 64 ∧ Work.entry.digits.length + 42 ≤ 42) ∧
    ((BitVec.ofNat 128 (2 ^ 116 - 1)).toNat < 2 ^ 116 ∧ 20 ≤ 20 ∧ Work.entry.digits.length + 20 ≤ 42) := by decide

theorem witness_FillFractionalsRoundsHalfUp :
    ∃ (e d : Int), (-128 ≤ e ∧ e ≤ 0 ∧ 2 ^ 53 - 1 < 2 ^ (-e).toNat ∧ e = -128) ∧
      (-128 ≤ d ∧ d ≤ 0 ∧ 0 < 2 ^ (-d).toNat ∧ d = 0) ∧ 20 ≤ 20 ∧
      { digits := List.replicate 16 (ch 9), dp := 16 : Work }.allDigits ∧
      (List.replicate 16 (ch 9)).length ≤ 16 :=
  ⟨-128, 0, by decide, by decide, by decide, by
    intro b hb
    rw [List.eq_of_mem_replicate hb]
    decide, by decide⟩

theorem witness_RoundUpAddsOneUnit :
    { digits := [ch 9, ch 9], dp := 2 : Work }.allDigits ∧ { digits := [ch 9, ch 9], dp := 2 : Work }.digits ≠ [] ∧
    { digits := [], dp := -7 : Work }.digits = [] := by
  refine ⟨?_, by decide, rfl⟩
  intro b hb
  simp only [List.mem_cons, List.not_mem_nil, or_false, or_self] at hb
  subst hb
  decide

theorem witness_TrimZerosKeepsTheValue : { digits := [ch 0, ch 1, ch 0], dp := 0 : Work }.allDigits := by
  intro b hb
  simp only [List.mem_cons, List.not_mem_nil, or_false] at hb
  rcases hb with rfl | rfl | rfl <;> decide

theorem witness_IdleReadsReturnTheRegister :
    (unit []).inFlight = none ∧ (unit [.read 0x00#8]).inputs = .read 0x00#8 :: [] ∧
    (unit [.read 0x01#8]).inputs = .read 0x01#8 :: [] ∧ (unit [.read 0x02#8]).inputs = .read 0x02#8 :: [] ∧
    (unit [.read 0x03#8]).inputs = .read 0x03#8 :: [] ∧ (unit [.read 0x04#8]).inputs = .read 0x04#8 :: [] ∧
    (unit [.read 0x05#8]).inputs = .read 0x05#8 :: [] ∧ (unit [.read 0x06#8]).inputs = .read 0x06#8 :: [] ∧
    (unit [.read 0x07#8]).inputs = .read 0x07#8 :: [] ∧ (unit [.read 0x08#8]).inputs = .read 0x08#8 :: [] ∧
    (unit [.read 0x40#8]).inputs = .read (BitVec.ofNat 8 (0x40 + 0)) :: [] ∧
    (unit [.read 0x69#8]).inputs = .read (BitVec.ofNat 8 (0x40 + 41)) :: [] := by decide

theorem witness_StatusFieldsAndReservedBits :
    State.reset.fault = none ∧ { State.reset with fault := some .dtoaInternal }.fault = some .dtoaInternal := by decide

theorem witness_BadAccessesOnlyRecord :
    0x09 ≤ (0x09#8).toNat ∧ (0x3F#8).toNat ≤ 0x3F ∧ 0x6A ≤ (0x6A#8).toNat ∧ 0x6A ≤ (0xFF#8).toNat ∧
    (unit []).inFlight = none ∧ (unit []).fault = none ∧ 0x04 ≤ (0x04#8).toNat ∧ (0x07#8).toNat ≤ 0x07 ∧
    0x09 ≤ (0x40#8).toNat := by decide

theorem witness_OperandWritesLand :
    (unit []).inFlight = none ∧ (unit []).fault = none ∧
    (unit [.write 0x00#8 1#64 0]).inputs = .write 0x00#8 1#64 0 :: [] ∧
    (unit [.write 0x01#8 1#64 0]).inputs = .write 0x01#8 1#64 0 :: [] ∧
    (unit [.write 0x02#8 1#64 0]).inputs = .write 0x02#8 1#64 0 :: [] ∧
    (unit [.write 0x03#8 1#64 0]).inputs = .write 0x03#8 1#64 0 :: [] := by decide

theorem witness_ConstructInEitherOrder : State.reset.inFlight = none ∧ State.reset.fault = none := by decide

/-- A unit with MUL in progress and `n + 2` more busy accesses. -/
def busyUnit (n : Nat) (l : List Input) : State :=
  { unit l with a := 3, m := 5, inFlight := some { cmd := .mul, left := n + 2 } }

theorem witness_DroppedWrites :
    (busyUnit 0 [.write 0x08#8 0#64 0]).inFlight = some { cmd := .mul, left := 0 + 2 } ∧
    (busyUnit 0 [.write 0x08#8 0#64 0]).inputs = .write 0x08#8 0#64 0 :: [] ∧
    { unit [.write 0x00#8 5#64 0] with fault := some .mulOvf }.inFlight = none ∧
    { unit [.write 0x00#8 5#64 0] with fault := some .mulOvf }.fault ≠ none ∧
    { unit [.write 0x00#8 5#64 0] with fault := some .mulOvf }.inputs = .write 0x00#8 5#64 0 :: [] := by decide

/-- The state after the DTOA of 0.001 with `fc = 5` (L2.7), while an ISZ is in progress. -/
def afterDtoa : State :=
  { State.reset with
    len := 1, dp := BitVec.ofInt 32 (-2), buf := (Vector.replicate 42 0x00#8).set 0 0x31#8, ok := true,
    inFlight := some { cmd := .isz, left := 1 } }

theorem witness_ReadsWhileBusy :
    (busyUnit 0 []).inFlight = some { cmd := .mul, left := 2 } ∧ (∀ n, Instr.mul ≠ .bitat n) ∧ Instr.mul ≠ .isz ∧
    (∀ n, Instr.mul ≠ .dtoa n) ∧ (∀ p, Instr.mul ≠ .divp2 p) ∧ afterDtoa.inFlight = some { cmd := .isz, left := 1 } ∧
    Instr.isz ≠ .mul ∧ (∀ k, Instr.isz ≠ .shf k) ∧ (∀ p, Instr.isz ≠ .divp2 p) ∧
    (0x40 : Nat) ≤ (0x40#8).toNat ∧ (0x69#8).toNat ≤ 0x69 := by
  refine ⟨rfl, ?_, ?_, ?_, ?_, rfl, ?_, ?_, ?_, ?_, ?_⟩ <;> simp

theorem witness_ResetGivesTheResetState :
    (busyUnit 0 [.reset]).inputs = .reset :: [] ∧ nextHas (step (busyUnit 0 [.reset])) (fun t => t == State.reset) := by
  decide

theorem witness_FirstFaultIsKeptUntilReset :
    { unit [.read 0x09#8] with fault := some .mulOvf }.fault = some .mulOvf ∧
    ∃ t, step { unit [.read 0x09#8] with fault := some .mulOvf } = .next t := ⟨rfl, _, rfl⟩

theorem witness_FaultedUnitIsFrozen :
    { unit [.write 0x08#8 5#64 0] with fault := some .mulOvf }.fault ≠ none ∧
    { unit [.write 0x08#8 5#64 0] with fault := some .mulOvf }.inFlight = none ∧
    (∀ rest, { unit [.write 0x08#8 5#64 0] with fault := some .mulOvf }.inputs ≠ .reset :: rest) ∧
    ∃ t, step { unit [.write 0x08#8 5#64 0] with fault := some .mulOvf } = .next t :=
  ⟨by decide, rfl, by simp [unit], _, rfl⟩

theorem witness_EachFaultHasItsOwnOrigin :
    (∃ t, step (busyUnit 0 [.write 0x02#8 7#64 0]) = .next t ∧ t.fault = some .busyViolation) ∧
    (∃ t, step (unit [.write 0x08#8 0x100#64 0]) = .next t ∧ t.fault = some .illegalCmd) ∧
    (∃ t, step (unit [.read 0x6A#8]) = .next t ∧ t.fault = some .badAccess) ∧
    (∃ t, step (unit [.write 0x07#8 0#64 0]) = .next t ∧ t.fault = some .badAccess) ∧
    (∃ t, step (unit [.write 0x08#8 0x4102#64 0]) = .next t ∧ t.fault = some .shiftRange) ∧
    (∃ t, step { unit [.write 0x08#8 1#64 0] with a := 0x1000000000000000000000000#128, m := 0x100000000#64 } = .next t ∧
      t.fault = some .mulOvf) ∧
    (∃ t, step { unit [.write 0x08#8 3#64 0] with a := 0x100000000#128 } = .next t ∧ t.fault = some .divQovf) ∧
    (∃ t, step (unit [.write 0x08#8 0x8003#64 0]) = .next t ∧ t.fault = some .divRange) ∧
    (∃ t, step (unit [.write 0x08#8 0x8004#64 0]) = .next t ∧ t.fault = some .bitRange) ∧
    (∃ t, step { unit [.write 0x08#8 0x10#64 0] with v := 0x8000000000000000#64 } = .next t ∧
      t.fault = some .dtoaInput) ∧
    (∃ t, step { lastBusy [] with inFlight := some { cmd := .shf 65, left := 1 } } = .next t ∧
      t.fault = some .shiftRange) :=
  ⟨⟨_, rfl, rfl⟩, ⟨_, rfl, rfl⟩, ⟨_, rfl, rfl⟩, ⟨_, rfl, rfl⟩, ⟨_, rfl, rfl⟩, ⟨_, rfl, rfl⟩, ⟨_, rfl, rfl⟩,
    ⟨_, rfl, rfl⟩, ⟨_, rfl, rfl⟩, ⟨_, rfl, rfl⟩, ⟨_, rfl, rfl⟩⟩

theorem witness_CommandsWriteOnlyTheirWriteSet :
    Instr.nop ≠ .mul ∧ (∀ k, Instr.nop ≠ .shf k) ∧ (∀ p, Instr.nop ≠ .divp2 p) ∧ (∀ pos, Instr.nop ≠ .bitat pos) ∧
    Instr.nop ≠ .isz ∧ (∀ fc, Instr.nop ≠ .dtoa fc) ∧ { unit [] with fault := some .mulOvf }.fault ≠ none := by
  refine ⟨?_, ?_, ?_, ?_, ?_, ?_, ?_⟩ <;> simp

theorem witness_BusyUnitHoldsItsRegisters :
    (busyUnit 0 [.wait]).inFlight = some { cmd := .mul, left := 0 + 2 } ∧ (busyUnit 0 [.wait]).inputs = .wait :: [] ∧
    Input.wait.isAccess = true := by decide

theorem witness_CommandCompletesAfterItsLatency :
    (lastBusy [.wait]).inFlight = some { cmd := .mul, left := 0 + 1 } ∧ 0 + 1 ≤ (lastBusy [.wait]).inputs.length ∧
    ((lastBusy [.wait]).inputs.take (0 + 1)).all Input.isAccess = true ∧
    (busyUnit 0 [.read 0x00#8, .read 0x00#8]).inFlight = some { cmd := .mul, left := 1 + 1 } ∧
    1 + 1 ≤ (busyUnit 0 [.read 0x00#8, .read 0x00#8]).inputs.length ∧
    ((busyUnit 0 [.read 0x00#8, .read 0x00#8]).inputs.take (1 + 1)).all Input.isAccess = true := by decide

theorem witness_WaitEndsAfterTheCommand :
    (lastBusy [.wait]).inFlight = some { cmd := .mul, left := 0 + 1 } ∧ (lastBusy [.wait]).inputs = .wait :: [] ∧
    (unit [.wait]).inFlight = none ∧ (unit [.wait]).inputs = .wait :: [] := by decide

theorem witness_WaitingHostNeverViolatesBusy :
    (busyUnit 0 [.wait]).hostWaits ∧ (busyUnit 0 [.wait]).fault ≠ some .busyViolation ∧
    ∃ t, step (busyUnit 0 [.wait]) = .next t :=
  ⟨⟨by decide, fun _ => by decide⟩, by decide, _, rfl⟩

theorem witness_EveryStepKeepsTheInvariant : afterDtoa.Inv ∧ ∃ t, step afterDtoa = .next t := by
  refine ⟨⟨by decide, by decide, by decide, by decide, by decide, by decide, by decide, ?_⟩, _, rfl⟩
  rintro f ⟨⟩
  decide

theorem witness_InstancesAreIndependent :
    (System.reset 2)[1]? = some { State.reset with unitNo := 1 } ∧
    (∃ t, step { State.reset with unitNo := 1 } = .next t) ∧ 1 < 2 := ⟨rfl, ⟨_, rfl⟩, by decide⟩

end Sys2Proof.Tests
end

section
/-! PROOFS. The front end of DTOA: the fields of a binary64 pattern (spec/00_scope.md R14), its decomposition (R99) and
the regime table (R102). -/

namespace Sys2Proof.Machine

/-! ### The fields of a pattern, as numbers -/

theorem exponentField_eq (v : Word64) : exponentField v = v.toNat / 2 ^ 52 % 2 ^ 11 := by
  rw [exponentField, BitVec.extractLsb'_toNat, Nat.shiftRight_eq_div_pow]

theorem fractionField_eq (v : Word64) : fractionField v = v.toNat % 2 ^ 52 := by
  rw [fractionField, BitVec.extractLsb'_toNat, Nat.shiftRight_zero]

theorem fractionField_lt (v : Word64) : fractionField v < 2 ^ 52 :=
  (v.extractLsb' 0 52).isLt

/-! ### Decomposition -/

/-- Zero and the subnormals: no hidden bit, and the least exponent. -/
theorem decompose_of_exponentField_eq_zero {v : Word64} (h : exponentField v = 0) :
    decompose v = (fractionField v, -1074) := by
  rw [decompose, if_pos h]

/-- The normals: the hidden bit 2^52 stands above the stored fraction. -/
theorem decompose_of_exponentField_ne_zero {v : Word64} (h : exponentField v ≠ 0) :
    decompose v = (fractionField v + 2 ^ 52, (exponentField v : Int) - 1075) := by
  rw [decompose, if_neg h]

theorem decompose_fst_bounds {v : Word64} (h : exponentField v ≠ 0) :
    2 ^ 52 ≤ (decompose v).1 ∧ (decompose v).1 < 2 ^ 53 := by
  have hf := fractionField_lt v
  simp only [decompose_of_exponentField_ne_zero h]
  omega

/-! ### The regime table -/

/-- The exponents at which the table of R102 lists a regime, an interval each. -/
def Regime.covers : Regime → Int → Prop
  | .a, exp => 12 ≤ exp
  | .b, exp => 0 ≤ exp ∧ exp ≤ 11
  | .c, exp => -52 ≤ exp ∧ exp ≤ -1
  | .d, exp => -128 ≤ exp ∧ exp ≤ -53
  | .e, exp => exp < -128

/-- The regime selected lists the exponent: each test that failed bounds its interval from above. -/
theorem selectRegime_covers (e : Int) : (selectRegime e).covers e := by
  unfold selectRegime
  split_ifs with ha hb hc hd
  · exact ha
  · exact ⟨hb, by omega⟩
  · exact ⟨hc, by omega⟩
  · exact ⟨hd, by omega⟩
  · exact not_le.mp hd

/-- No other regime lists the exponent: in its interval every earlier test fails. -/
theorem selectRegime_of_covers {r : Regime} {e : Int} (h : r.covers e) : selectRegime e = r := by
  unfold selectRegime
  cases r with
  | a => exact if_pos h
  | b =>
    obtain ⟨hlow, hhigh⟩ := h
    rw [if_neg (by omega), if_pos hlow]
  | c =>
    obtain ⟨hlow, hhigh⟩ := h
    rw [if_neg (by omega), if_neg (by omega), if_pos hlow]
  | d =>
    obtain ⟨hlow, hhigh⟩ := h
    rw [if_neg (by omega), if_neg (by omega), if_neg (by omega), if_pos hlow]
  | e =>
    have hhigh : e < -128 := h
    rw [if_neg (by omega), if_neg (by omega), if_neg (by omega), if_neg (by omega)]

/-- The table of R102: a regime is selected exactly on its interval. -/
theorem selectRegime_eq_iff (e : Int) (r : Regime) : selectRegime e = r ↔ r.covers e :=
  ⟨fun h => h ▸ selectRegime_covers e, selectRegime_of_covers⟩

/-- Settles O34: the fields of `V` as numbers give the decomposition, and the table gives the regimes. -/
theorem decomposeAndRegimeTable : Obligations.DecomposeAndRegimeTable := by
  refine ⟨fun v hE => ?_, fun v hE => ?_, fun e _ => ?_⟩
  · rw [← exponentField_eq] at hE
    rw [decompose_of_exponentField_eq_zero hE, fractionField_eq]
  · rw [← exponentField_eq] at hE ⊢
    rw [← fractionField_eq]
    exact ⟨decompose_of_exponentField_ne_zero hE, decompose_fst_bounds hE⟩
  · exact ⟨selectRegime_eq_iff e .a, selectRegime_eq_iff e .b, selectRegime_eq_iff e .c, selectRegime_eq_iff e .d,
      selectRegime_eq_iff e .e⟩

end Sys2Proof.Machine
end

section
/-! PROOFS. The digit stages of DTOA (spec/42_digit_stages.md): what each stage does to the digits and the decimal point
of the working state. -/

namespace Sys2Proof.Machine

/-! ### The number that digits write, against how many there are -/

theorem digitOf_le_nine {b : Byte} (h : isDigit b = true) : digitOf b ≤ 9 := by
  obtain ⟨d, hd, rfl⟩ := (isDigit_iff b).1 h
  rwa [digitOf_ch hd]

/-- The only digit character of value 0 is '0'. -/
theorem digitOf_pos {b : Byte} (h : isDigit b = true) (h0 : b ≠ ch 0) : 1 ≤ digitOf b := by
  obtain ⟨d, hd, rfl⟩ := (isDigit_iff b).1 h
  rw [digitOf_ch hd, Nat.one_le_iff_ne_zero]
  rintro rfl
  exact h0 rfl

theorem decimalNat_cons (b : Byte) (ds : List Byte) :
    decimalNat (b :: ds) = digitOf b * 10 ^ ds.length + decimalNat ds := by
  rw [← List.singleton_append, decimalNat_append, decimalNat_singleton]

theorem decimalNat_lt {ds : List Byte} (h : ∀ b ∈ ds, isDigit b = true) : decimalNat ds < 10 ^ ds.length := by
  induction ds with
  | nil => simp
  | cons b ds ih =>
    have hb := digitOf_le_nine (h b (by simp))
    have hds := ih fun c hc => h c (by simp [hc])
    calc decimalNat (b :: ds) = digitOf b * 10 ^ ds.length + decimalNat ds := decimalNat_cons b ds
      _ ≤ 9 * 10 ^ ds.length + decimalNat ds := by gcongr
      _ < 10 ^ (b :: ds).length := by rw [List.length_cons, pow_succ]; omega

/-- Digits without a leading zero write a number of their full length. -/
theorem pow_length_le_decimalNat {ds : List Byte} (h : ∀ b ∈ ds, isDigit b = true) (hne : ds ≠ [])
    (hhead : ds.head? ≠ some (ch 0)) : 10 ^ (ds.length - 1) ≤ decimalNat ds := by
  cases ds with
  | nil => exact absurd rfl hne
  | cons b ds =>
    have hb : 1 ≤ digitOf b := digitOf_pos (h b (by simp)) (by simpa using hhead)
    calc 10 ^ ((b :: ds).length - 1) ≤ digitOf b * 10 ^ ds.length := Nat.le_mul_of_pos_left _ hb
      _ ≤ decimalNat (b :: ds) := by rw [decimalNat_cons]; exact Nat.le_add_right _ _

/-- A number below 10^k has at most `k` digits, if it is written without a leading zero. -/
theorem length_le_of_decimalNat_lt {ds : List Byte} {k : Nat} (h : ∀ b ∈ ds, isDigit b = true)
    (hhead : ds.head? ≠ some (ch 0)) (hlt : decimalNat ds < 10 ^ k) : ds.length ≤ k := by
  rcases eq_or_ne ds [] with rfl | hne
  · simp
  · have hpow := (pow_length_le_decimalNat h hne hhead).trans_lt hlt
    have := (Nat.pow_lt_pow_iff_right (by decide)).1 hpow
    omega

/-- A number of 10^k or more has more than `k` digits. -/
theorem lt_length_of_le_decimalNat {ds : List Byte} {k : Nat} (h : ∀ b ∈ ds, isDigit b = true)
    (hle : 10 ^ k ≤ decimalNat ds) : k < ds.length :=
  (Nat.pow_lt_pow_iff_right (by decide)).1 (hle.trans_lt (decimalNat_lt h))

theorem decimalNat_of_forall_nine {ds : List Byte} (h : ∀ b ∈ ds, b = ch 9) :
    decimalNat ds + 1 = 10 ^ ds.length := by
  induction ds with
  | nil => rfl
  | cons b ds ih =>
    have hds := ih fun c hc => h c (by simp [hc])
    rw [h b (by simp), decimalNat_cons, digitOf_ch le_rfl, List.length_cons, pow_succ]
    omega

/-! ### The emitters (R122 to R125) -/

/-- FillDigits32 stops at the last nonzero digit. -/
theorem variableDigits_getLast?_ne_zero {k n : Nat} (h : n < 10 ^ k) :
    (variableDigits k n).getLast? ≠ some (ch 0) := by
  induction k generalizing n with
  | zero => simp [variableDigits]
  | succ k ih =>
    have hdiv : n / 10 < 10 ^ k := by rw [pow_succ] at h; omega
    unfold variableDigits
    split
    · simp
    · rename_i hn
      cases hds : variableDigits k (n / 10) with
      | cons d ds =>
        rw [List.getLast?_cons_cons, ← hds]
        exact ih hdiv
      | nil =>
        have hzero : n / 10 = 0 := by rw [← decimalNat_variableDigits hdiv, hds]; rfl
        have hdigit := digitOf_ch (show n % 10 ≤ 9 by omega)
        intro hlast
        rw [show ch (n % 10) = ch 0 by simpa using hlast, digitOf_ch (by omega)] at hdigit
        omega

/-- Digit characters `ds` that write `n`. -/
def Spells (ds : List Byte) (n : Nat) : Prop := (∀ b ∈ ds, isDigit b = true) ∧ decimalNat ds = n

theorem Spells.append {ds es : List Byte} {m n : Nat} (hd : Spells ds m) (he : Spells es n) :
    Spells (ds ++ es) (m * 10 ^ es.length + n) := by
  obtain ⟨hdigits, rfl⟩ := hd
  obtain ⟨hedigits, rfl⟩ := he
  refine ⟨fun b hb => ?_, decimalNat_append ds es⟩
  exact (List.mem_append.1 hb).elim (hdigits b) (hedigits b)

theorem spells_fixedDigits {n width : Nat} (h : n < 10 ^ width) : Spells (fixedDigits width n).reverse n :=
  ⟨fun b hb => fixedDigits_isDigit _ _ b (List.mem_reverse.1 hb),
    (decimalNat_fixedDigits width n).trans (Nat.mod_eq_of_lt h)⟩

theorem spells_variableDigits {n : Nat} (h : n < 2 ^ 32) : Spells (variableDigits 10 n).reverse n :=
  ⟨fun b hb => variableDigits_isDigit _ _ b (List.mem_reverse.1 hb), decimalNat_variableDigits (by omega)⟩

theorem head?_variableDigits_ne_zero {n : Nat} (h : n < 2 ^ 32) :
    (variableDigits 10 n).reverse.head? ≠ some (ch 0) := by
  rw [List.head?_reverse]
  exact variableDigits_getLast?_ne_zero (by omega)

theorem Spells.ne_nil {ds : List Byte} {n : Nat} (h : Spells ds n) (hn : n ≠ 0) : ds ≠ [] := by
  rintro rfl
  exact hn h.2.symm

/-- A leading digit that is not zero stays the leading digit when digits follow. -/
theorem head?_append_ne {ds : List Byte} {b : Byte} (hne : ds ≠ []) (h : ds.head? ≠ some b) (es : List Byte) :
    (ds ++ es).head? ≠ some b := by
  rwa [List.head?_append_of_ne_nil _ hne]

/-- An emitter has appended the digits `ds` of `n` and left the decimal point. -/
structure Emits (o : Option Work) (w : Work) (ds : List Byte) (n : Nat) : Prop where
  appended : o = some { w with digits := w.digits ++ ds }
  spells : Spells ds n

/-- FillDigits32 appends its number without a leading zero (R122). -/
theorem fillDigits32_emits {n : Nat} {w : Work} (h : n < 2 ^ 32) (room : w.digits.length ≤ 32) :
    Emits (fillDigits32 n w) w (variableDigits 10 n).reverse n where
  appended := by
    have := variableDigits_length_le 10 n
    rw [fillDigits32, if_pos h, Work.append_of_room (by rw [List.length_reverse]; omega)]
  spells := spells_variableDigits h

/-- FillDigits32FixedLength appends its number in `width` digits (R123). -/
theorem fillDigits32FixedLength_emits {n width : Nat} {w : Work} (h : n < 10 ^ width)
    (room : w.digits.length + width ≤ 42) :
    Emits (fillDigits32FixedLength n width w) w (fixedDigits width n).reverse n where
  appended := by
    rw [fillDigits32FixedLength, if_pos h, Work.append_of_room (by simpa using room)]
  spells := spells_fixedDigits h

/-- A further group of `width` digits multiplies the number before it by 10^width. -/
theorem Emits.fixedLength {o : Option Work} {w : Work} {ds : List Byte} {m n width : Nat} (ho : Emits o w ds m)
    (h : n < 10 ^ width) (room : w.digits.length + ds.length + width ≤ 42) :
    Emits (o.bind (fillDigits32FixedLength n width)) w (ds ++ (fixedDigits width n).reverse) (m * 10 ^ width + n) where
  appended := by
    rw [ho.appended, Option.bind_some, (fillDigits32FixedLength_emits h (by simpa using room)).appended]
    simp only [List.append_assoc]
  spells := by simpa using ho.spells.append (spells_fixedDigits h)

/-- FillDigits64FixedLength appends its number in 17 digits (R124). -/
theorem fillDigits64FixedLength_emits {n : Nat} {w : Work} (h : n < 10 ^ 17) (room : w.digits.length ≤ 25) :
    ∃ ds, Emits (fillDigits64FixedLength n w) w ds n ∧ ds.length = 17 := by
  have h0 : n / 10 ^ 7 / 10 ^ 7 < 10 ^ 3 := by omega
  have hfirst := fillDigits32FixedLength_emits (w := w) h0 (by omega)
  have hsecond := hfirst.fixedLength (n := n / 10 ^ 7 % 10 ^ 7) (width := 7) (by omega) (by simp; omega)
  have hthird := hsecond.fixedLength (n := n % 10 ^ 7) (width := 7) (by omega) (by simp; omega)
  rw [show (n / 10 ^ 7 / 10 ^ 7 * 10 ^ 7 + n / 10 ^ 7 % 10 ^ 7) * 10 ^ 7 + n % 10 ^ 7 = n by omega] at hthird
  simp only [fillDigits64FixedLength, if_pos h]
  exact ⟨_, hthird, by simp⟩

/-- FillDigits64 on a number of one group of seven digits (R125). -/
theorem fillDigits64_of_one_group {n : Nat} (w : Work) (h : n < 10 ^ 7) : fillDigits64 n w = fillDigits32 n w := by
  have h0 : n / 10 ^ 7 / 10 ^ 7 = 0 := by omega
  have h1 : n / 10 ^ 7 % 10 ^ 7 = 0 := by omega
  simp only [fillDigits64, h0, h1, Nat.mod_eq_of_lt h, ne_eq, not_true_eq_false, if_false]

/-- FillDigits64 on a number of two groups (R125). -/
theorem fillDigits64_of_two_groups {n : Nat} (w : Work) (hlow : 10 ^ 7 ≤ n) (h : n < 10 ^ 14) :
    fillDigits64 n w = (fillDigits32 (n / 10 ^ 7) w).bind (fillDigits32FixedLength (n % 10 ^ 7) 7) := by
  have h0 : n / 10 ^ 7 / 10 ^ 7 = 0 := by omega
  have h1 : n / 10 ^ 7 % 10 ^ 7 = n / 10 ^ 7 := by omega
  simp only [fillDigits64, h0, h1, ne_eq, not_true_eq_false, if_false]
  rw [if_pos (by omega)]

/-- FillDigits64 on a number of three groups (R125). -/
theorem fillDigits64_of_three_groups {n : Nat} (w : Work) (hlow : 10 ^ 14 ≤ n) :
    fillDigits64 n w = ((fillDigits32 (n / 10 ^ 7 / 10 ^ 7) w).bind
      (fillDigits32FixedLength (n / 10 ^ 7 % 10 ^ 7) 7)).bind (fillDigits32FixedLength (n % 10 ^ 7) 7) := by
  have h0 : n / 10 ^ 7 / 10 ^ 7 ≠ 0 := by omega
  simp only [fillDigits64, if_pos h0]

/-- FillDigits64 appends its number without a leading zero (R125). -/
theorem fillDigits64_emits {n : Nat} {w : Work} (h : n < 2 ^ 64) (room : w.digits.length ≤ 22) :
    ∃ ds, Emits (fillDigits64 n w) w ds n ∧ ds.head? ≠ some (ch 0) ∧ ds.length ≤ 20 := by
  suffices hs : ∃ ds, Emits (fillDigits64 n w) w ds n ∧ ds.head? ≠ some (ch 0) by
    obtain ⟨ds, hds, hhead⟩ := hs
    exact ⟨ds, hds, hhead, length_le_of_decimalNat_lt hds.spells.1 hhead (by rw [hds.spells.2]; omega)⟩
  rcases lt_or_ge n (10 ^ 7) with hone | htwo
  · rw [fillDigits64_of_one_group w hone]
    exact ⟨_, fillDigits32_emits (by omega) (by omega), head?_variableDigits_ne_zero (by omega)⟩
  rcases lt_or_ge n (10 ^ 14) with htwo' | hthree
  · rw [fillDigits64_of_two_groups w htwo htwo']
    have hbelow : n / 10 ^ 7 < 2 ^ 32 := by omega
    have hlen := variableDigits_length_le 10 (n / 10 ^ 7)
    have hfirst := fillDigits32_emits (w := w) hbelow (by omega)
    have hsecond := hfirst.fixedLength (n := n % 10 ^ 7) (width := 7) (by omega) (by rw [List.length_reverse]; omega)
    rw [show n / 10 ^ 7 * 10 ^ 7 + n % 10 ^ 7 = n by omega] at hsecond
    exact ⟨_, hsecond, head?_append_ne (hfirst.spells.ne_nil (by omega)) (head?_variableDigits_ne_zero hbelow) _⟩
  · rw [fillDigits64_of_three_groups w hthree]
    have hbelow : n / 10 ^ 7 / 10 ^ 7 < 2 ^ 32 := by omega
    have hfirst := fillDigits32_emits (w := w) hbelow (by omega)
    have hhead := head?_variableDigits_ne_zero hbelow
    have hlen : (variableDigits 10 (n / 10 ^ 7 / 10 ^ 7)).reverse.length ≤ 6 :=
      length_le_of_decimalNat_lt hfirst.spells.1 hhead (by rw [hfirst.spells.2]; omega)
    have hsecond := hfirst.fixedLength (n := n / 10 ^ 7 % 10 ^ 7) (width := 7) (by omega) (by omega)
    have hthird := hsecond.fixedLength (n := n % 10 ^ 7) (width := 7) (by omega)
      (by rw [List.length_append, List.length_reverse (as := fixedDigits _ _), fixedDigits_length]; omega)
    rw [show (n / 10 ^ 7 / 10 ^ 7 * 10 ^ 7 + n / 10 ^ 7 % 10 ^ 7) * 10 ^ 7 + n % 10 ^ 7 = n by omega] at hthird
    refine ⟨_, hthird, ?_⟩
    rw [List.append_assoc]
    exact head?_append_ne (hfirst.spells.ne_nil (by omega)) hhead _

end Sys2Proof.Machine
end

section
/-! PROOFS. The fractional loops of DTOA (spec/42_digit_stages.md R126 to R131): both take the digits of one
division. -/

namespace Sys2Proof.Machine

/-- What a fractional loop has done to the fraction `x / 2^point` when at most `n` digits are wanted: it took the digits
`es`, and left the fraction `rest / 2^point'`. -/
structure FractionDigits (n x point : Nat) (es : List Byte) (rest point' : Nat) : Prop where
  /-- Each digit moves the binary point by one place, because a factor 10 is a factor 5 and a move. -/
  moved : es.length + point' = point
  below : rest < 2 ^ point'
  digits : ∀ b ∈ es, isDigit b = true
  value : x * 5 ^ es.length = decimalNat es * 2 ^ point' + rest
  count : es.length ≤ n
  ended : es.length = n ∨ rest = 0

/-- A loop that stops at once. -/
theorem FractionDigits.stop {n x point : Nat} (hx : x < 2 ^ point) (h : n = 0 ∨ x = 0) :
    FractionDigits n x point [] x point where
  moved := by simp
  below := hx
  digits := by simp
  value := by simp
  count := by simp
  ended := by simpa [eq_comm] using h

/-- The digit a loop takes is below 10 (R128, R130). -/
theorem fraction_digit_le_nine {x p : Nat} (hx : x < 2 ^ (p + 1)) : 5 * x / 2 ^ p ≤ 9 := by
  have : 5 * x / 2 ^ p < 10 := Nat.div_lt_of_lt_mul (by rw [pow_succ] at hx; omega)
  omega

/-- One more digit in front. -/
theorem FractionDigits.take {n x p rest point' : Nat} {es : List Byte} (hx : x < 2 ^ (p + 1))
    (h : FractionDigits n (5 * x % 2 ^ p) p es rest point') :
    FractionDigits (n + 1) x (p + 1) (ch (5 * x / 2 ^ p) :: es) rest point' where
  moved := by have := h.moved; rw [List.length_cons]; omega
  below := h.below
  digits := by simpa [isDigit_ch (fraction_digit_le_nine hx)] using h.digits
  value := by
    have hpow : 2 ^ p * 5 ^ es.length = 10 ^ es.length * 2 ^ point' := by
      rw [← h.moved, pow_add, show (10 : Nat) = 2 * 5 from rfl, mul_pow]; ring
    rw [decimalNat_cons, digitOf_ch (fraction_digit_le_nine hx)]
    calc x * 5 ^ (ch (5 * x / 2 ^ p) :: es).length = 5 * x * 5 ^ es.length := by rw [List.length_cons]; ring
      _ = (2 ^ p * (5 * x / 2 ^ p) + 5 * x % 2 ^ p) * 5 ^ es.length := by rw [Nat.div_add_mod]
      _ = 5 * x / 2 ^ p * (2 ^ p * 5 ^ es.length) + 5 * x % 2 ^ p * 5 ^ es.length := by ring
      _ = _ := by rw [hpow, h.value]; ring
  count := by simpa using h.count
  ended := by simpa using h.ended

/-! ### Why no product of a loop overflows (R128, R130) -/

/-- The fraction `x / 2^point` of a loop that works in `W` bits: it is below 1, and from below `2^(W - 8)` at
`point = W` it grew by a factor 5 at most with each digit taken. -/
structure FitsLoop (W point x : Nat) : Prop where
  below : x < 2 ^ point
  grown : x < 5 ^ (W - point) * 2 ^ (W - 8)

/-- Three digits on the first bound is enough, before it the second one. -/
theorem FitsLoop.product_lt {W point x : Nat} (hW : 8 ≤ W) (h : FitsLoop W point x) : 5 * x < 2 ^ W := by
  obtain ⟨hbelow, hgrown⟩ := h
  rcases le_or_gt (point + 3) W with hfar | hnear
  · calc 5 * x < 2 ^ (point + 3) := by rw [pow_add]; omega
      _ ≤ 2 ^ W := Nat.pow_le_pow_right (by decide) hfar
  · have hfive : 5 ^ (W - point) ≤ 5 ^ 2 := Nat.pow_le_pow_right (by decide) (by omega)
    have hbound : x < 5 ^ 2 * 2 ^ (W - 8) := hgrown.trans_le (Nat.mul_le_mul_right _ hfive)
    calc 5 * x < 2 ^ (8 + (W - 8)) := by rw [pow_add]; omega
      _ = 2 ^ W := by rw [Nat.add_sub_cancel' hW]

theorem FitsLoop.rest {W p x : Nat} (hp : p + 1 ≤ W) (h : FitsLoop W (p + 1) x) : FitsLoop W p (5 * x % 2 ^ p) where
  below := Nat.mod_lt _ (by positivity)
  grown := by
    calc 5 * x % 2 ^ p ≤ 5 * x := Nat.mod_le _ _
      _ < 5 * (5 ^ (W - (p + 1)) * 2 ^ (W - 8)) := Nat.mul_lt_mul_of_pos_left h.grown (by decide)
      _ = 5 ^ (W - (p + 1) + 1) * 2 ^ (W - 8) := by rw [pow_succ]; ring
      _ = 5 ^ (W - p) * 2 ^ (W - 8) := by rw [show W - (p + 1) + 1 = W - p by omega]

/-- With no fractional bits left there is no fraction. -/
theorem FitsLoop.point_pos {W point x : Nat} (h : FitsLoop W point x) (hx : x ≠ 0) : ∃ p, point = p + 1 := by
  refine Nat.exists_eq_succ_of_ne_zero ?_
  rintro rfl
  have := h.below
  omega

/-! ### The 64-bit loop (R127, R128) -/

theorem fractionLoop64_of_done {n x point : Nat} (w : Work) (h : n = 0 ∨ x = 0) :
    fractionLoop64 n x point w = some (x, point, w) := by
  cases n with
  | zero => rfl
  | succ n =>
    have hx : x = 0 := by simpa using h
    unfold fractionLoop64
    rw [if_pos hx]

theorem fractionLoop64_of_digit {n x p : Nat} (w : Work) (h0 : x ≠ 0) (h5 : 5 * x < 2 ^ 64) (hx : x < 2 ^ (p + 1)) :
    fractionLoop64 (n + 1) x (p + 1) w =
      (w.append [ch (5 * x / 2 ^ p)]).bind (fractionLoop64 n (5 * x % 2 ^ p) p) := by
  have hrest : 5 * x - 5 * x / 2 ^ p * 2 ^ p = 5 * x % 2 ^ p := by
    have := Nat.div_add_mod' (5 * x) (2 ^ p); omega
  simp only [fractionLoop64, if_neg h0, if_pos h5, if_pos (fraction_digit_le_nine hx), hrest]

/-- The 64-bit loop never fails, and takes the digits of its fraction (R128). -/
theorem fractionLoop64_digits {n x point : Nat} {w : Work} (hfit : FitsLoop 64 point x) (hpoint : point ≤ 64)
    (room : w.digits.length + n ≤ 42) :
    ∃ es rest point', fractionLoop64 n x point w = some (rest, point', { w with digits := w.digits ++ es }) ∧
      FractionDigits n x point es rest point' := by
  induction n generalizing x point w with
  | zero => exact ⟨[], x, point, by simp [fractionLoop64_of_done w (.inl rfl)], .stop hfit.below (.inl rfl)⟩
  | succ n ih =>
    rcases eq_or_ne x 0 with h0 | h0
    · exact ⟨[], x, point, by simp [fractionLoop64_of_done w (.inr h0)], .stop hfit.below (.inr h0)⟩
    obtain ⟨p, rfl⟩ := hfit.point_pos h0
    obtain ⟨es, rest, point', hloop, hdigits⟩ := ih (w := { w with digits := w.digits ++ [ch (5 * x / 2 ^ p)] })
      (hfit.rest hpoint) (by omega) (by simp; omega)
    refine ⟨_, rest, point', ?_, hdigits.take hfit.below⟩
    rw [fractionLoop64_of_digit w h0 (hfit.product_lt (by decide)) hfit.below,
      Work.append_of_room (by simp; omega), Option.bind_some, hloop]
    simp

/-! ### The 128-bit loop (R129, R130) -/

theorem iszero_iff (x : U128) : iszero x = true ↔ x.toNat = 0 := by
  simp [iszero, BitVec.toNat_eq]

theorem fractionLoop128_of_done {n point : Nat} {x : U128} (w : Work) (h : n = 0 ∨ x.toNat = 0) :
    fractionLoop128 n x point w = some (x, point, w) := by
  cases n with
  | zero => rfl
  | succ n =>
    have hx : iszero x = true := (iszero_iff x).2 (by simpa using h)
    unfold fractionLoop128
    rw [if_pos hx]

theorem fractionLoop128_of_digit {n p : Nat} {x : U128} (w : Work) (h0 : x.toNat ≠ 0) (h5 : 5 * x.toNat < 2 ^ 128)
    (hx : x.toNat < 2 ^ (p + 1)) :
    fractionLoop128 (n + 1) x (p + 1) w =
      (w.append [ch (5 * x.toNat / 2 ^ p)]).bind (fractionLoop128 n (BitVec.ofNat 128 (5 * x.toNat % 2 ^ p)) p) := by
  have hdigit := fraction_digit_le_nine hx
  have hzero : iszero x = false := by rw [Bool.eq_false_iff, Ne, iszero_iff]; exact h0
  have hproduct : mul128 x 5#64 = (BitVec.ofNat 128 (5 * x.toNat), false) :=
    Prod.ext (by simp [mul128, Nat.mul_comm]) (decide_eq_false (by simp; omega))
  have hquotient : divmodp2 (BitVec.ofNat 128 (5 * x.toNat)) p =
      (BitVec.ofNat 32 (5 * x.toNat / 2 ^ p), BitVec.ofNat 128 (5 * x.toNat % 2 ^ p), false) := by
    rw [divmodp2_eq, BitVec.toNat_ofNat, Nat.mod_eq_of_lt h5, decide_eq_false (by omega)]
  have hchar : (BitVec.ofNat 32 (5 * x.toNat / 2 ^ p)).toNat = 5 * x.toNat / 2 ^ p := by
    rw [BitVec.toNat_ofNat, Nat.mod_eq_of_lt (by omega)]
  simp only [fractionLoop128, hzero, hproduct, hquotient, hchar, if_pos hdigit, Bool.false_eq_true, if_false]

/-- The 128-bit loop never fails, and takes the digits of its fraction (R130). -/
theorem fractionLoop128_digits {n point : Nat} {x : U128} {w : Work} (hfit : FitsLoop 128 point x.toNat)
    (hpoint : point ≤ 128) (room : w.digits.length + n ≤ 42) :
    ∃ es rest point', fractionLoop128 n x point w = some (rest, point', { w with digits := w.digits ++ es }) ∧
      FractionDigits n x.toNat point es rest.toNat point' := by
  induction n generalizing x point w with
  | zero => exact ⟨[], x, point, by simp [fractionLoop128_of_done w (.inl rfl)], .stop hfit.below (.inl rfl)⟩
  | succ n ih =>
    rcases eq_or_ne x.toNat 0 with h0 | h0
    · exact ⟨[], x, point, by simp [fractionLoop128_of_done w (.inr h0)], .stop hfit.below (.inr h0)⟩
    obtain ⟨p, rfl⟩ := hfit.point_pos h0
    have hproduct := hfit.product_lt (by decide)
    have hrest : (BitVec.ofNat 128 (5 * x.toNat % 2 ^ p)).toNat = 5 * x.toNat % 2 ^ p := by
      rw [BitVec.toNat_ofNat, Nat.mod_eq_of_lt ((Nat.mod_le _ _).trans_lt hproduct)]
    obtain ⟨es, rest, point', hloop, hdigits⟩ := ih (w := { w with digits := w.digits ++ [ch (5 * x.toNat / 2 ^ p)] })
      (x := BitVec.ofNat 128 (5 * x.toNat % 2 ^ p)) (hrest ▸ hfit.rest hpoint) (by omega) (by simp; omega)
    rw [hrest] at hdigits
    refine ⟨_, rest, point', ?_, hdigits.take hfit.below⟩
    rw [fractionLoop128_of_digit w h0 hproduct hfit.below, Work.append_of_room (by simp; omega), Option.bind_some,
      hloop]
    simp

end Sys2Proof.Machine
end

section
/-! PROOFS. Fractional digits, round-up and trim (spec/42_digit_stages.md R126 to R135). -/

namespace Sys2Proof.Machine

/-! ### FillFractionals (R126 to R131) -/

/-- The digits a fractional loop took are appended, and the remainder decides whether to round up: halves go up. -/
def roundedWork (w : Work) (es : List Byte) (rest point : Nat) : Work :=
  if 2 ^ point ≤ 2 * rest then roundUp { w with digits := w.digits ++ es } else { w with digits := w.digits ++ es }

/-- The top bit of a remainder says whether it is a half or more. -/
theorem testBit_top_iff {rest p : Nat} (h : rest < 2 ^ (p + 1)) : rest.testBit p = true ↔ 2 ^ (p + 1) ≤ 2 * rest := by
  rw [Nat.testBit_eq_decide_div_mod_eq, decide_eq_true_iff, pow_succ'] at *
  have hlt : rest / 2 ^ p < 2 := Nat.div_lt_of_lt_mul (by omega)
  rw [Nat.mod_eq_of_lt hlt, mul_le_mul_iff_right₀ (by decide), ← Nat.one_le_div_iff (by positivity)]
  omega

theorem fillFractionals64_eq {frac fc : Nat} {e : Int} {w : Work} (hfrac : frac < 2 ^ (-e).toNat)
    (h53 : frac < 2 ^ 53) (he : -e ≤ 64) (room : w.digits.length + fc ≤ 42) :
    ∃ es rest point', FractionDigits fc frac (-e).toNat es rest point' ∧
      fillFractionals64 frac e fc w = some (roundedWork w es rest point') := by
  have hfit : FitsLoop 64 (-e).toNat frac := ⟨hfrac, by
    calc frac < 1 * 2 ^ (64 - 8) := by omega
      _ ≤ 5 ^ (64 - (-e).toNat) * 2 ^ (64 - 8) := Nat.mul_le_mul_right _ (Nat.one_le_pow _ _ (by decide))⟩
  obtain ⟨es, rest, point', hloop, hdigits⟩ := fractionLoop64_digits (w := w) hfit (by omega) room
  refine ⟨es, rest, point', hdigits, ?_⟩
  simp only [fillFractionals64, if_pos (show frac < 2 ^ 56 by omega), hloop, roundedWork]
  rcases eq_or_ne rest 0 with rfl | hrest
  · simp
  · have hbelow := hdigits.below
    obtain ⟨p, rfl⟩ : ∃ p, point' = p + 1 := Nat.exists_eq_succ_of_ne_zero (by rintro rfl; omega)
    simp only [if_neg hrest, testBit_top_iff hbelow]

theorem fillFractionals128_eq {frac fc : Nat} {e : Int} {w : Work} (h53 : frac < 2 ^ 53) (he : 64 < -e)
    (he128 : -e ≤ 128) (hfc : fc ≤ 20) (room : w.digits.length + fc ≤ 42) :
    ∃ x es rest point', x * 2 ^ (-e).toNat = frac * 2 ^ 128 ∧ FractionDigits fc x 128 es rest point' ∧
      fillFractionals128 frac e fc w = some (roundedWork w es rest point') := by
  obtain ⟨n, rfl⟩ : ∃ n : Nat, e = -(64 + n) := ⟨(-e - 64).toNat, by omega⟩
  have hn : n ≤ 64 := by omega
  have hshift :
      (shift128 (BitVec.ofNat 128 (frac * 2 ^ 64)) (-(-(64 + n : Int)) - 64)).toNat = frac * 2 ^ (64 - n) := by
    rw [shift128_toNat_of_nonneg _ (by omega), BitVec.toNat_ofNat, Nat.mod_eq_of_lt (by omega),
      show (-(-(64 + n : Int)) - 64).toNat = n by omega, ← Nat.pow_div hn (by decide),
      Nat.mul_div_assoc _ (Nat.pow_dvd_pow 2 hn)]
  set x := shift128 (BitVec.ofNat 128 (frac * 2 ^ 64)) (-(-(64 + n : Int)) - 64) with hx
  have hsmall : x.toNat < 2 ^ 116 := by
    calc x.toNat = frac * 2 ^ (64 - n) := hshift
      _ ≤ frac * 2 ^ 63 := Nat.mul_le_mul_left _ (Nat.pow_le_pow_right (by decide) (by omega))
      _ < 2 ^ 116 := by omega
  obtain ⟨es, rest, point', hloop, hdigits⟩ :=
    fractionLoop128_digits (w := w) (n := fc) (x := x) (point := 128) ⟨by omega, by omega⟩ le_rfl room
  refine ⟨x.toNat, es, rest.toNat, point', ?_, hdigits, ?_⟩
  · rw [hshift, mul_assoc, ← pow_add, show 64 - n + (-(-(64 + n : Int))).toNat = 128 by omega]
  · obtain ⟨p, rfl⟩ : ∃ p, point' = p + 1 :=
      Nat.exists_eq_succ_of_ne_zero (by have := hdigits.moved; have := hdigits.count; omega)
    have hp : p + 1 ≤ 128 := by have := hdigits.moved; omega
    have htop : bitat rest p = true ↔ 2 ^ (p + 1) ≤ 2 * rest.toNat := testBit_top_iff hdigits.below
    simp only [fillFractionals128, if_pos (show -64 ≤ -(-(64 + n : Int)) - 64 ∧ -(-(64 + n : Int)) - 64 ≤ 64 by omega),
      ← hx, hloop, if_pos (show 1 ≤ p + 1 ∧ p + 1 ≤ 128 by omega), Nat.add_sub_cancel, htop, roundedWork]

/-- FillFractionals never fails on the fractions the regimes give it: it takes at most `fc` digits of `frac × 2^e`,
which is `x / 2^point`, and rounds. -/
theorem fillFractionals_eq {frac fc : Nat} {e : Int} {w : Work} (he : -128 ≤ e) (he0 : e ≤ 0)
    (hfrac : frac < 2 ^ (-e).toNat) (h53 : frac < 2 ^ 53) (hfc : fc ≤ 20) (room : w.digits.length + fc ≤ 42) :
    ∃ x point es rest point', x * 2 ^ (-e).toNat = frac * 2 ^ point ∧ FractionDigits fc x point es rest point' ∧
      fillFractionals frac e fc w = some (roundedWork w es rest point') := by
  simp only [fillFractionals, if_pos (show -128 ≤ e ∧ e ≤ 0 ∧ frac < 2 ^ (-e).toNat from ⟨he, he0, hfrac⟩)]
  rcases le_or_gt (-e) 64 with hshort | hlong
  · obtain ⟨es, rest, point', hdigits, heq⟩ := fillFractionals64_eq hfrac h53 hshort room
    exact ⟨frac, _, es, rest, point', rfl, hdigits, by rw [if_pos hshort, heq]⟩
  · obtain ⟨x, es, rest, point', hx, hdigits, heq⟩ := fillFractionals128_eq h53 hlong (by omega) hfc room
    exact ⟨x, 128, es, rest, point', hx, hdigits, by rw [if_neg (by omega), heq]⟩

/-! ### RoundUp (R132, R133) -/

/-- The character after a digit character. -/
theorem ch_add_one (d : Nat) : ch d + 1 = ch (d + 1) := by
  apply BitVec.eq_of_toNat_eq
  simp [ch]; omega

theorem ch_injective {c d : Nat} (hc : c ≤ 10) (hd : d ≤ 10) (h : ch c = ch d) : c = d := by
  have := congrArg BitVec.toNat h
  rw [ch_toNat hc, ch_toNat hd] at this
  omega

/-- A digit becomes the post-'9' character exactly from '9'; any other becomes a digit that is not '0'. -/
theorem isDigit_add_one {b : Byte} (h : isDigit b = true) :
    (b = ch 9 ∧ b + 1 = ch 10) ∨ (b + 1 ≠ ch 10 ∧ isDigit (b + 1) = true ∧ b + 1 ≠ ch 0) := by
  obtain ⟨d, hd, rfl⟩ := (isDigit_iff b).1 h
  rw [ch_add_one]
  rcases hd.eq_or_lt with rfl | hlt
  · exact .inl ⟨rfl, rfl⟩
  · refine .inr ⟨fun h => ?_, isDigit_ch (by omega), fun h => ?_⟩
    · have := ch_injective (by omega) le_rfl h; omega
    · have := ch_injective (by omega) (by omega) h; omega

/-- What the cascade has done to the digits `ds`, read from the last to the first. -/
structure CarriedUp (ds : List Byte) (r : List Byte × Bool) : Prop where
  length : r.1.length = ds.length
  digits : ∀ b ∈ r.1, isDigit b = true
  /-- The cascade runs through the first digit only over nines. -/
  nines : r.2 = true → ∀ b ∈ ds, b = ch 9
  /-- The first digit does not become zero. -/
  first : ds.getLast? ≠ some (ch 0) → r.1.getLast? ≠ some (ch 0)

theorem carryUp_nine_cons (e : Byte) (ds : List Byte) :
    carryUp (ch 9 :: e :: ds) = (ch 0 :: (carryUp (e :: ds)).1, (carryUp (e :: ds)).2) := by
  rw [carryUp, if_pos (by decide)]

/-- The cascade stops at a digit below '9'. -/
theorem carryUp_cons_of_ne {d : Byte} (ds : List Byte) (h : d + 1 ≠ ch 10) :
    carryUp (d :: ds) = ((d + 1) :: ds, false) := by
  cases ds with
  | nil => rw [carryUp, if_neg h]
  | cons e ds => rw [carryUp, if_neg h]

theorem carryUp_carriedUp {ds : List Byte} (h : ∀ b ∈ ds, isDigit b = true) : CarriedUp ds (carryUp ds) := by
  induction ds with
  | nil => exact ⟨rfl, by simp [carryUp], by simp, by simp [carryUp]⟩
  | cons d ds ih =>
    have hds : ∀ b ∈ ds, isDigit b = true := fun b hb => h b (List.mem_cons_of_mem _ hb)
    rcases isDigit_add_one (h d List.mem_cons_self) with ⟨rfl, -⟩ | ⟨hne, hdigit, hzero⟩
    · cases ds with
      | nil => exact ⟨rfl, by decide, by simp, by decide⟩
      | cons e ds =>
        obtain ⟨hlength, hdigits, hnines, hfirst⟩ := ih hds
        rw [carryUp_nine_cons]
        refine ⟨by simpa using hlength, ?_, ?_, ?_⟩
        · simpa [isDigit_ch] using hdigits
        · simpa using hnines
        · obtain ⟨r, rs, hr⟩ := List.exists_cons_of_length_eq_add_one hlength
          rw [hr] at hfirst
          simpa [hr] using hfirst
    · rw [carryUp_cons_of_ne ds hne]
      refine ⟨rfl, ?_, by simp, ?_⟩
      · rintro b (_ | ⟨_, hb⟩)
        exacts [hdigit, hds b hb]
      · cases ds with
        | nil => exact fun _ h => hzero (Option.some.inj h)
        | cons e ds => simp

/-- RoundUp on an empty buffer (R132). -/
theorem roundUp_of_nil {w : Work} (h : w.digits = []) : roundUp w = { digits := [ch 1], dp := 1 } := by
  rw [roundUp, if_pos h]

theorem roundUp_of_ne_nil {w : Work} (h : w.digits ≠ []) :
    roundUp w = { digits := (carryUp w.digits.reverse).1.reverse,
                  dp := if (carryUp w.digits.reverse).2 then w.dp + 1 else w.dp } := by
  rw [roundUp, if_neg h]

theorem Work.allDigits.carriedUp {w : Work} (h : w.allDigits) :
    CarriedUp w.digits.reverse (carryUp w.digits.reverse) :=
  carryUp_carriedUp fun b hb => h b (List.mem_reverse.1 hb)

theorem roundUp_allDigits {w : Work} (h : w.allDigits) : (roundUp w).allDigits := by
  rcases eq_or_ne w.digits [] with hnil | hne
  · rw [roundUp_of_nil hnil]
    intro b hb
    rw [List.mem_singleton.1 hb]
    decide
  · rw [roundUp_of_ne_nil hne]
    exact fun b hb => h.carriedUp.digits b (List.mem_reverse.1 hb)

theorem roundUp_length {w : Work} (h : w.allDigits) (hne : w.digits ≠ []) :
    (roundUp w).digits.length = w.digits.length := by
  rw [roundUp_of_ne_nil hne, List.length_reverse, h.carriedUp.length, List.length_reverse]

/-- RoundUp moves the decimal point only when every digit is '9'. -/
theorem roundUp_dp {w : Work} (h : w.allDigits) (hne : w.digits ≠ []) :
    (roundUp w).dp = w.dp ∨ ((roundUp w).dp = w.dp + 1 ∧ ∀ b ∈ w.digits, b = ch 9) := by
  rw [roundUp_of_ne_nil hne]
  cases htop : (carryUp w.digits.reverse).2 with
  | false => exact .inl (by simp)
  | true => exact .inr ⟨by simp, fun b hb => h.carriedUp.nines htop b (List.mem_reverse.2 hb)⟩

/-- RoundUp makes no leading zero. -/
theorem roundUp_head? {w : Work} (h : w.allDigits) (hne : w.digits ≠ []) (hhead : w.digits.head? ≠ some (ch 0)) :
    (roundUp w).digits.head? ≠ some (ch 0) := by
  rw [roundUp_of_ne_nil hne, List.head?_reverse]
  exact h.carriedUp.first (by rwa [List.getLast?_reverse])

/-! ### TrimZeros (R134) -/

/-- What TrimZeros keeps at first begins the digits: Mathlib calls the first trim `List.rdropWhile`. -/
theorem dropTrailingZeros_initial (ds : List Byte) : dropTrailingZeros ds <+: ds :=
  ⟨_, List.rdropWhile_append_rtakeWhile⟩

theorem getLast?_dropTrailingZeros (ds : List Byte) : (dropTrailingZeros ds).getLast? ≠ some (ch 0) := by
  intro h
  have hne : dropTrailingZeros ds ≠ [] := by rintro hnil; simp [hnil] at h
  have hlast : (ds.rdropWhile (· == ch 0)).getLast hne = ch 0 := (List.getLast_eq_iff_getLast?_eq_some hne).2 h
  exact List.rdropWhile_last_not _ ds hne (by rw [hlast]; rfl)

theorem trimZeros_digits (w : Work) :
    (trimZeros w).digits = (dropTrailingZeros w.digits).dropWhile (· == ch 0) := by
  change (dropTrailingZeros w.digits).drop (leadingZeros (dropTrailingZeros w.digits)) = _
  generalize dropTrailingZeros w.digits = kept
  calc kept.drop (leadingZeros kept)
      = (kept.takeWhile (· == ch 0) ++ kept.dropWhile (· == ch 0)).drop (leadingZeros kept) := by
        rw [List.takeWhile_append_dropWhile]
    _ = kept.dropWhile (· == ch 0) := List.drop_left

theorem trimZeros_dp (w : Work) : (trimZeros w).dp = w.dp - (leadingZeros (dropTrailingZeros w.digits) : Int) := rfl

/-- The leading zeros that move the decimal point were digits of the buffer, too. -/
theorem leadingZeros_add_trimZeros_length (w : Work) :
    leadingZeros (dropTrailingZeros w.digits) + (trimZeros w).digits.length ≤ w.digits.length := by
  rw [trimZeros_digits, leadingZeros, ← List.length_append, List.takeWhile_append_dropWhile]
  exact (dropTrailingZeros_initial _).length_le

theorem trimZeros_length_le (w : Work) : (trimZeros w).digits.length ≤ w.digits.length := by
  have := leadingZeros_add_trimZeros_length w
  omega

/-- Digits with neither a leading nor a trailing zero (R116, R117). -/
structure Work.Trimmed (w : Work) : Prop where
  digits : w.allDigits
  first : w.digits.head? ≠ some (ch 0)
  last : w.digits.getLast? ≠ some (ch 0)

theorem trimZeros_trimmed {w : Work} (h : w.allDigits) : (trimZeros w).Trimmed := by
  have hsuffix : (trimZeros w).digits <:+ dropTrailingZeros w.digits :=
    trimZeros_digits w ▸ List.dropWhile_suffix _
  refine ⟨fun b hb => h b ((dropTrailingZeros_initial _).subset (hsuffix.subset hb)), fun hhead => ?_, fun hlast => ?_⟩
  · have := List.head?_dropWhile_not (· == ch 0) (dropTrailingZeros w.digits)
    rw [← trimZeros_digits, hhead] at this
    simp at this
  · exact getLast?_dropTrailingZeros w.digits (List.singleton_suffix_iff_getLast?_eq_some.1
      ((List.singleton_suffix_iff_getLast?_eq_some.2 hlast).trans hsuffix))

/-- Without a leading zero TrimZeros leaves the decimal point. -/
theorem trimZeros_dp_of_head? {w : Work} (h : w.digits.head? ≠ some (ch 0)) : (trimZeros w).dp = w.dp := by
  suffices hz : leadingZeros (dropTrailingZeros w.digits) = 0 by rw [trimZeros_dp, hz]; simp
  obtain ⟨rest, hrest⟩ := dropTrailingZeros_initial w.digits
  cases hkept : dropTrailingZeros w.digits with
  | nil => rfl
  | cons b ds =>
    have hb : b ≠ ch 0 := by
      rintro rfl
      rw [← hrest, hkept] at h
      exact h rfl
    simp [leadingZeros, hb]

end Sys2Proof.Machine
end

section
/-! PROOFS. The regimes of DTOA and the pipeline (spec/41_fixed_dtoa.md R97 to R115): on an accepted input no internal
check fails, and the result is trimmed and has its regime's size. -/

namespace Sys2Proof.Machine

/-! ### What a regime leaves for the trim -/

/-- The range of `DP` of a result that is not empty (R115). Regime E gives none (R108). -/
def Regime.pointRange : Regime → Int → Prop
  | .a, dp => 20 ≤ dp ∧ dp ≤ 22
  | .b, dp => 16 ≤ dp ∧ dp ≤ 20
  | .c, dp => 1 ≤ dp ∧ dp ≤ 16
  | .d, dp => -20 ≤ dp ∧ dp ≤ 1
  | .e, _ => False

/-- The digits a regime leaves, and where the trim will leave the decimal point. -/
structure Regime.Leaves (r : Regime) (w : Work) : Prop where
  digits : w.allDigits
  length : w.digits.length ≤ 36
  point : (trimZeros w).digits ≠ [] → r.pointRange (trimZeros w).dp

/-- Without a leading zero the trim leaves the decimal point where the regime put it. -/
theorem Regime.Leaves.of_head? {r : Regime} {w : Work} (h : w.allDigits) (hlen : w.digits.length ≤ 36)
    (hhead : w.digits.head? ≠ some (ch 0)) (hpoint : r.pointRange w.dp) : r.Leaves w :=
  ⟨h, hlen, fun _ => by rwa [trimZeros_dp_of_head? hhead]⟩

/-! ### Regimes A and B: the value is a whole number (R103, R105) -/

theorem ten_pow_17 : 10 ^ 17 = five17 * 2 ^ 17 := by decide

/-- The remainder of regime A is below 10^17 (R104). -/
theorem splitRegimeA_snd_lt (f : Nat) {e : Int} (he : 0 ≤ e) : (splitRegimeA f e).2 < 10 ^ 17 := by
  have hpos : 0 < five17 := by decide
  unfold splitRegimeA
  split
  · exact ten_pow_17 ▸ Nat.mul_lt_mul_of_pos_right (Nat.mod_lt _ hpos) (by positivity)
  · rename_i h
    calc f % (five17 * 2 ^ (17 - e).toNat) * 2 ^ e.toNat
        < five17 * 2 ^ (17 - e).toNat * 2 ^ e.toNat :=
          Nat.mul_lt_mul_of_pos_right (Nat.mod_lt _ (by positivity)) (by positivity)
      _ = five17 * 2 ^ 17 := by rw [mul_assoc, ← pow_add, show (17 - e).toNat + e.toNat = 17 by omega]
      _ = 10 ^ 17 := ten_pow_17.symm

/-- Regime A splits the value by 10^17 = 5^17 × 2^17 (R103). -/
theorem splitRegimeA_eq (f : Nat) {e : Int} (he : 0 ≤ e) :
    f * 2 ^ e.toNat = (splitRegimeA f e).1 * 10 ^ 17 + (splitRegimeA f e).2 := by
  unfold splitRegimeA
  split
  · rename_i h
    have hdiv := Nat.div_add_mod (f * 2 ^ (e - 17).toNat) five17
    calc f * 2 ^ e.toNat = f * 2 ^ (e - 17).toNat * 2 ^ 17 := by
          rw [mul_assoc, ← pow_add, show (e - 17).toNat + 17 = e.toNat by omega]
      _ = (five17 * (f * 2 ^ (e - 17).toNat / five17) + f * 2 ^ (e - 17).toNat % five17) * 2 ^ 17 := by rw [hdiv]
      _ = _ := by rw [ten_pow_17]; ring
  · rename_i h
    have hdiv := Nat.div_add_mod f (five17 * 2 ^ (17 - e).toNat)
    have hpow : 2 ^ (17 - e).toNat * 2 ^ e.toNat = 2 ^ 17 := by
      rw [← pow_add, show (17 - e).toNat + e.toNat = 17 by omega]
    calc f * 2 ^ e.toNat
        = (five17 * 2 ^ (17 - e).toNat * (f / (five17 * 2 ^ (17 - e).toNat)) +
            f % (five17 * 2 ^ (17 - e).toNat)) * 2 ^ e.toNat := by rw [hdiv]
      _ = f / (five17 * 2 ^ (17 - e).toNat) * (five17 * (2 ^ (17 - e).toNat * 2 ^ e.toNat)) +
            f % (five17 * 2 ^ (17 - e).toNat) * 2 ^ e.toNat := by ring
      _ = _ := by rw [hpow, ten_pow_17]

/-- Bounds of `f × 2^n` for a normal `f`. -/
theorem scaled_bounds {f n lo hi : Nat} (hf : 2 ^ 52 ≤ f) (hf' : f < 2 ^ 53) (hlo : lo ≤ n) (hhi : n ≤ hi) :
    2 ^ (52 + lo) ≤ f * 2 ^ n ∧ f * 2 ^ n < 2 ^ (53 + hi) := by
  constructor
  · rw [pow_add]
    exact Nat.mul_le_mul hf (Nat.pow_le_pow_right (by decide) hlo)
  · rw [pow_add]
    exact Nat.mul_lt_mul_of_lt_of_le hf' (Nat.pow_le_pow_right (by decide) hhi) (by positivity)

theorem regimeA_leaves {f : Nat} {e : Int} (hf : 2 ^ 52 ≤ f) (hf' : f < 2 ^ 53) (he : 12 ≤ e) (he' : e ≤ 20) :
    ∃ w, regimeA f e = some w ∧ Regime.a.Leaves w := by
  have hsplit := splitRegimeA_eq f (e := e) (by omega)
  have hrem := splitRegimeA_snd_lt f (e := e) (by omega)
  have hvalue := scaled_bounds hf hf' (n := e.toNat) (lo := 12) (hi := 20) (by omega) (by omega)
  unfold regimeA
  rcases hqr : splitRegimeA f e with ⟨q, r⟩
  rw [hqr] at hsplit hrem
  dsimp only at hsplit hrem ⊢
  have hq : 184 ≤ q ∧ q < 10 ^ 5 := by omega
  have hhead := head?_variableDigits_ne_zero (n := q) (by omega)
  have hfirst := fillDigits32_emits (w := Work.entry) (n := q) (by omega) (by decide)
  generalize (variableDigits 10 q).reverse = ds at hhead hfirst
  have hne := hfirst.spells.ne_nil (by omega)
  have hshort : ds.length ≤ 5 :=
    length_le_of_decimalNat_lt hfirst.spells.1 hhead (by rw [hfirst.spells.2]; omega)
  have hlong : 2 < ds.length := lt_length_of_le_decimalNat hfirst.spells.1 (by rw [hfirst.spells.2]; omega)
  obtain ⟨es, hsecond, hes⟩ :=
    fillDigits64FixedLength_emits (w := { digits := ds, dp := 0 }) hrem (by dsimp only; omega)
  refine ⟨Work.pointAtEnd { digits := ds ++ es, dp := 0 }, ?_, .of_head? ?_ ?_ (head?_append_ne hne hhead es) ?_⟩
  · rw [if_pos ⟨by omega, hrem⟩, hfirst.appended, Option.bind_some]
    exact congrArg _ hsecond.appended
  · exact (hfirst.spells.append hsecond.spells).1
  · simp [Work.pointAtEnd]; omega
  · simp [Regime.pointRange, Work.pointAtEnd]; omega

theorem regimeB_leaves {f : Nat} {e : Int} (hf : 2 ^ 52 ≤ f) (hf' : f < 2 ^ 53) (he : 0 ≤ e) (he' : e ≤ 11) :
    ∃ w, regimeB f e = some w ∧ Regime.b.Leaves w := by
  have hvalue := scaled_bounds hf hf' (n := e.toNat) (lo := 0) (hi := 11) (by omega) (by omega)
  obtain ⟨ds, hds, hhead, hlen⟩ := fillDigits64_emits (w := Work.entry) (n := f * 2 ^ e.toNat) (by omega) (by decide)
  have hlong : 15 < ds.length := lt_length_of_le_decimalNat hds.spells.1 (by rw [hds.spells.2]; omega)
  refine ⟨Work.pointAtEnd { digits := ds, dp := 0 }, ?_, .of_head? hds.spells.1 ?_ hhead ?_⟩
  · rw [regimeB, hds.appended]
    rfl
  · exact hlen.trans (by decide)
  · exact ⟨by simp [Work.pointAtEnd]; omega, by simp [Work.pointAtEnd]; omega⟩

/-! ### Regimes C and D: a fraction follows (R106, R107) -/

section roundedWork
variable {w : Work} {es : List Byte} {rest point : Nat}

theorem roundedWork_cases (w : Work) (es : List Byte) (rest point : Nat) :
    roundedWork w es rest point = { w with digits := w.digits ++ es } ∨
      roundedWork w es rest point = roundUp { w with digits := w.digits ++ es } := by
  unfold roundedWork
  split
  · exact .inr rfl
  · exact .inl rfl

theorem allDigits_append (h : w.allDigits) (hes : ∀ b ∈ es, isDigit b = true) :
    ({ w with digits := w.digits ++ es } : Work).allDigits :=
  fun b hb => (List.mem_append.1 hb).elim (h b) (hes b)

theorem roundedWork_allDigits (h : w.allDigits) (hes : ∀ b ∈ es, isDigit b = true) :
    (roundedWork w es rest point).allDigits := by
  rcases roundedWork_cases w es rest point with heq | heq <;> rw [heq]
  · exact allDigits_append h hes
  · exact roundUp_allDigits (allDigits_append h hes)

theorem roundedWork_length (h : w.allDigits) (hes : ∀ b ∈ es, isDigit b = true) (hne : w.digits ++ es ≠ []) :
    (roundedWork w es rest point).digits.length = w.digits.length + es.length := by
  rcases roundedWork_cases w es rest point with heq | heq <;> rw [heq]
  · exact List.length_append
  · exact (roundUp_length (allDigits_append h hes) hne).trans List.length_append

theorem roundedWork_dp (h : w.allDigits) (hes : ∀ b ∈ es, isDigit b = true) (hne : w.digits ++ es ≠ []) :
    (roundedWork w es rest point).dp = w.dp ∨
      ((roundedWork w es rest point).dp = w.dp + 1 ∧ ∀ b ∈ w.digits ++ es, b = ch 9) := by
  rcases roundedWork_cases w es rest point with heq | heq <;> rw [heq]
  · exact .inl rfl
  · exact roundUp_dp (allDigits_append h hes) hne

theorem roundedWork_head? (h : w.allDigits) (hes : ∀ b ∈ es, isDigit b = true) (hne : w.digits ≠ [])
    (hhead : w.digits.head? ≠ some (ch 0)) : (roundedWork w es rest point).digits.head? ≠ some (ch 0) := by
  have happend := head?_append_ne hne hhead es
  rcases roundedWork_cases w es rest point with heq | heq <;> rw [heq]
  · exact happend
  · exact roundUp_head? (allDigits_append h hes) (List.append_ne_nil_of_left_ne_nil hne es) happend

end roundedWork

/-- The integer digits of regime C, whichever emitter writes them (R106). -/
theorem integerDigits_emits {n : Nat} (h : n < 2 ^ 64) :
    ∃ ds, Emits (if 0xFFFFFFFF < n then fillDigits64 n Work.entry else fillDigits32 n Work.entry) Work.entry ds n ∧
      ds.head? ≠ some (ch 0) := by
  split
  · obtain ⟨ds, hds, hhead, -⟩ := fillDigits64_emits (w := Work.entry) h (by decide)
    exact ⟨ds, hds, hhead⟩
  · exact ⟨_, fillDigits32_emits (by omega) (by decide), head?_variableDigits_ne_zero (by omega)⟩

/-- The decimal point of regime C moves past place 16 only over sixteen nines, and the integer part is below 2^52. -/
theorem roundedWork_pointRange_c {ds es : List Byte} {n : Nat} (rest point : Nat) (hds : Spells ds n) (hn : n < 2 ^ 52)
    (hne : ds ≠ []) (hlen : ds.length ≤ 16) (hes : ∀ b ∈ es, isDigit b = true) :
    Regime.c.pointRange (roundedWork { digits := ds, dp := ds.length } es rest point).dp := by
  have hpos : 1 ≤ ds.length := List.length_pos_iff.2 hne
  have hdp := roundedWork_dp (w := { digits := ds, dp := ds.length }) (rest := rest) (point := point) hds.1 hes
    (List.append_ne_nil_of_left_ne_nil hne es)
  rcases hdp with hdp | ⟨hdp, hnines⟩ <;> rw [hdp]
  · exact ⟨by dsimp only; omega, by dsimp only; omega⟩
  · have hvalue : n + 1 = 10 ^ ds.length :=
      hds.2 ▸ decimalNat_of_forall_nine fun b hb => hnines b (List.mem_append_left es hb)
    have hshort : ds.length ≠ 16 := by
      intro h16
      rw [h16] at hvalue
      omega
    exact ⟨by dsimp only; omega, by dsimp only; omega⟩

theorem regimeC_leaves {f fc : Nat} {e : Int} (hf : 2 ^ 52 ≤ f) (hf' : f < 2 ^ 53) (he : -52 ≤ e) (he' : e ≤ -1)
    (hfc : fc ≤ 20) : ∃ w, regimeC f e fc = some w ∧ Regime.c.Leaves w := by
  have hpow : 2 ^ 1 ≤ 2 ^ (-e).toNat ∧ 2 ^ (-e).toNat ≤ 2 ^ 52 :=
    ⟨Nat.pow_le_pow_right (by decide) (by omega), Nat.pow_le_pow_right (by decide) (by omega)⟩
  have hmod : f - f / 2 ^ (-e).toNat * 2 ^ (-e).toNat = f % 2 ^ (-e).toNat := by
    have := Nat.div_add_mod' f (2 ^ (-e).toNat); omega
  have hfrac : f % 2 ^ (-e).toNat < 2 ^ (-e).toNat := Nat.mod_lt _ (by omega)
  have hpos : 1 ≤ f / 2 ^ (-e).toNat := (Nat.one_le_div_iff (by omega)).2 (by omega)
  have hbelow : f / 2 ^ (-e).toNat < 2 ^ 52 := Nat.div_lt_of_lt_mul (by omega)
  obtain ⟨ds, hds, hhead⟩ := integerDigits_emits (n := f / 2 ^ (-e).toNat) (by omega)
  have hne := hds.spells.ne_nil (by omega)
  have hlen : ds.length ≤ 16 :=
    length_le_of_decimalNat_lt hds.spells.1 hhead (by rw [hds.spells.2]; omega)
  have hall : ({ digits := ds, dp := ds.length } : Work).allDigits := hds.spells.1
  obtain ⟨x, point, es, rest, point', -, hes, hfill⟩ :=
    fillFractionals_eq (w := { digits := ds, dp := ds.length }) (by omega) (by omega) hfrac (by omega) hfc
      (by dsimp only; omega)
  refine ⟨roundedWork { digits := ds, dp := ds.length } es rest point', ?_, .of_head?
    (roundedWork_allDigits hall hes.digits) ?_ (roundedWork_head? hall hes.digits hne hhead)
    (roundedWork_pointRange_c rest point' hds.spells hbelow hne hlen hes.digits)⟩
  · simp only [regimeC, hds.appended, Option.map_some, Option.bind_some, hmod]
    exact hfill
  · have hcount := hes.count
    rw [roundedWork_length hall hes.digits (List.append_ne_nil_of_left_ne_nil hne es)]
    dsimp only
    omega

theorem regimeD_leaves {f fc : Nat} {e : Int} (hf' : f < 2 ^ 53) (he : -128 ≤ e) (he' : e ≤ -53)
    (hfc : fc ≤ 20) : ∃ w, regimeD f e fc = some w ∧ Regime.d.Leaves w := by
  have hfrac : f < 2 ^ (-e).toNat := hf'.trans_le (Nat.pow_le_pow_right (by decide) (by omega))
  obtain ⟨x, point, es, rest, point', -, hes, hfill⟩ :=
    fillFractionals_eq (w := Work.entry) he (by omega) hfrac hf' hfc (by change 0 + fc ≤ 42; omega)
  have hall : Work.entry.allDigits := by simp [Work.entry, Work.allDigits]
  have hcount := hes.count
  obtain ⟨hlen, hlow, hhigh⟩ : (roundedWork Work.entry es rest point').digits.length ≤ 20 ∧
      0 ≤ (roundedWork Work.entry es rest point').dp ∧ (roundedWork Work.entry es rest point').dp ≤ 1 := by
    have hentry : Work.entry.dp = 0 := rfl
    rcases eq_or_ne es [] with rfl | hne
    · rcases roundedWork_cases Work.entry [] rest point' with heq | heq <;> rw [heq]
      · decide
      · decide
    · rw [roundedWork_length hall hes.digits hne, show Work.entry.digits.length = 0 from rfl]
      refine ⟨by omega, ?_⟩
      rcases roundedWork_dp (rest := rest) (point := point') hall hes.digits hne with hdp | ⟨hdp, -⟩ <;> omega
  refine ⟨_, hfill, roundedWork_allDigits hall hes.digits, hlen.trans (by decide), fun _ => ?_⟩
  have hzeros := leadingZeros_add_trimZeros_length (roundedWork Work.entry es rest point')
  have hdp := trimZeros_dp (roundedWork Work.entry es rest point')
  exact ⟨by omega, by omega⟩

/-! ### The pipeline (R97) -/

theorem regimeE_leaves (fc : Nat) : ∃ w, regimeE fc = some w ∧ Regime.e.Leaves w :=
  ⟨_, rfl, by simp [Work.allDigits], by simp, fun h => absurd rfl h⟩

theorem runRegime_leaves {f fc : Nat} {e : Int} (hf : -128 ≤ e → 2 ^ 52 ≤ f ∧ f < 2 ^ 53) (he : e ≤ 20)
    (hfc : fc ≤ 20) : ∃ w, runRegime f e fc = some w ∧ (selectRegime e).Leaves w := by
  have hcovers := selectRegime_covers e
  unfold runRegime
  cases hr : selectRegime e <;> rw [hr] at hcovers <;> simp only [Regime.covers] at hcovers
  case a => exact regimeA_leaves (hf (by omega)).1 (hf (by omega)).2 hcovers he
  case b => exact regimeB_leaves (hf (by omega)).1 (hf (by omega)).2 hcovers.1 hcovers.2
  case c => exact regimeC_leaves (hf (by omega)).1 (hf (by omega)).2 hcovers.1 hcovers.2 hfc
  case d => exact regimeD_leaves (hf (by omega)).2 hcovers.1 hcovers.2 hfc
  case e => exact regimeE_leaves fc

/-- The result of a regime as it is committed (R109, R115 to R117). -/
structure Regime.Result (r : Regime) (fc : Nat) (w : Work) : Prop where
  trimmed : w.Trimmed
  length : w.digits.length ≤ 36
  empty : w.digits = [] → w.dp = -(fc : Int)
  point : w.digits ≠ [] → r.pointRange w.dp

theorem Regime.Leaves.terminate {r : Regime} {w : Work} (h : r.Leaves w) (fc : Nat) :
    ∃ t, terminate fc w = some t ∧ r.Result fc t := by
  have htrimmed := trimZeros_trimmed h.digits
  have hlen := (trimZeros_length_le w).trans h.length
  refine ⟨_, if_pos (hlen.trans_lt (by decide)), ?_⟩
  split
  · rename_i hnil
    exact ⟨⟨htrimmed.digits, htrimmed.first, htrimmed.last⟩, hlen, fun _ => rfl, fun hne => absurd hnil hne⟩
  · rename_i hne
    exact ⟨htrimmed, hlen, fun hnil => absurd hnil hne, h.point⟩

/-- Below the subnormal exponent a value is normal. -/
theorem decompose_fst_bounds_of_exponent {v : Word64} (h : -128 ≤ (decompose v).2) :
    2 ^ 52 ≤ (decompose v).1 ∧ (decompose v).1 < 2 ^ 53 := by
  apply decompose_fst_bounds
  intro h0
  rw [decompose_of_exponentField_eq_zero h0] at h
  dsimp only at h
  omega

theorem inputRejected_eq_false_iff (v : Word64) : inputRejected v = false ↔ passesInputCheck v := by
  rw [inputRejected, Bool.or_eq_false_iff, decide_eq_false_iff_not]
  rfl

theorem dtoa_of_inputRejected {v : Word64} (fc : Nat) (h : ¬passesInputCheck v) : dtoa v fc = .inputFault := by
  rw [← inputRejected_eq_false_iff, Bool.not_eq_false] at h
  rw [dtoa, if_pos h]

/-- Behind the input check the gate decides (R100). -/
theorem dtoa_of_gate_closed {v : Word64} {fc : Nat} (h : passesInputCheck v)
    (hgate : 20 < (decompose v).2 ∨ 20 < fc) : dtoa v fc = .rejected := by
  rw [dtoa, (inputRejected_eq_false_iff v).2 h]
  exact if_pos hgate

/-- Behind the gate the regime and the termination give the result. -/
theorem dtoa_of_terminated {v : Word64} {fc : Nat} {w t : Work} (h : dtoaAccepts v fc)
    (hw : runRegime (decompose v).1 (decompose v).2 fc = some w) (ht : terminate fc w = some t) :
    dtoa v fc = .success t := by
  obtain ⟨hpasses, he, hfc⟩ := h
  have hgate : ¬(Config.expMax < (decompose v).2 ∨ Config.fcMax < fc) :=
    not_or.2 ⟨not_lt.2 he, not_lt.2 hfc⟩
  simp only [dtoa, (inputRejected_eq_false_iff v).2 hpasses, Bool.false_eq_true, if_false, if_neg hgate, hw,
    Option.bind_some, ht]

/-- On an accepted input DTOA succeeds (R114), with the result of the regime. -/
theorem dtoa_of_accepts {v : Word64} {fc : Nat} (h : dtoaAccepts v fc) :
    ∃ w, dtoa v fc = .success w ∧ (selectRegime (decompose v).2).Result fc w := by
  obtain ⟨w, hw, hleaves⟩ := runRegime_leaves decompose_fst_bounds_of_exponent h.2.1 h.2.2
  obtain ⟨t, ht, hresult⟩ := hleaves.terminate fc
  exact ⟨t, dtoa_of_terminated h hw ht, hresult⟩

end Sys2Proof.Machine
end

section
/-! PROOFS. The command DTOA on an accepted input: its completion, the size of its result, what it depends on, and the
invariant of the result registers. -/

namespace Sys2Proof.Machine

/-! ### Completion and commit (R110) -/

theorem exec_dtoa_of_success {s : State} {fc : Nat} {w : Work} (h : dtoa s.v fc = .success w) :
    exec (.dtoa fc) s = .next (s.commitWork w).complete := by
  simp only [exec, execDtoa, h]

/-- Settles O25: an accepted DTOA succeeds, and the commit writes OK, LEN, DP and BUF. -/
theorem dtoaCompletesOnAcceptedInput : Obligations.DtoaCompletesOnAcceptedInput := by
  intro s fc haccepts
  obtain ⟨w, hw, -⟩ := dtoa_of_accepts haccepts
  exact ⟨_, _, _, _, exec_dtoa_of_success hw⟩

/-! ### The size of a result (R115) -/

theorem Regime.pointRange.bounds {r : Regime} {dp : Int} (h : r.pointRange dp) : -20 ≤ dp ∧ dp ≤ 22 := by
  cases r <;> simp only [Regime.pointRange] at h <;> omega

theorem Regime.Result.dp_bounds {r : Regime} {fc : Nat} {w : Work} (h : r.Result fc w) (hfc : fc ≤ 20) :
    -20 ≤ w.dp ∧ w.dp ≤ 22 := by
  rcases eq_or_ne w.digits [] with hnil | hne
  · rw [h.empty hnil]
    omega
  · exact (h.point hne).bounds

theorem commitWork_len_toNat {w : Work} (s : State) (h : w.digits.length ≤ 36) :
    (s.commitWork w).len.toNat = w.digits.length := by
  rw [State.commitWork_len, BitVec.toNat_ofNat, Nat.mod_eq_of_lt (by omega)]

theorem commitWork_len_eq_zero_iff {w : Work} (s : State) (h : w.digits.length ≤ 36) :
    (s.commitWork w).len = 0#32 ↔ w.digits = [] := by
  rw [BitVec.toNat_eq, commitWork_len_toNat s h]
  exact List.length_eq_zero_iff

theorem commitWork_dp_toInt {w : Work} (s : State) (h : -20 ≤ w.dp ∧ w.dp ≤ 22) : (s.commitWork w).dp.toInt = w.dp := by
  rw [State.commitWork_dp, BitVec.toInt_ofInt]
  exact Int.bmod_eq_of_le (by omega) (by omega)

/-- The point ranges by the intervals of the exponent. -/
theorem pointRange_of_exponent {e dp : Int} (h : (selectRegime e).pointRange dp) :
    (12 ≤ e → 20 ≤ dp) ∧ (0 ≤ e ∧ e ≤ 11 → 16 ≤ dp ∧ dp ≤ 20) ∧ (-52 ≤ e ∧ e ≤ -1 → 1 ≤ dp ∧ dp ≤ 16) ∧
      (-128 ≤ e ∧ e ≤ -53 → -20 ≤ dp ∧ dp ≤ 1) := by
  refine ⟨fun he => ?_, fun he => ?_, fun he => ?_, fun he => ?_⟩
  · rw [selectRegime_of_covers (r := .a) he] at h
    exact h.1
  · rwa [selectRegime_of_covers (r := .b) he] at h
  · rwa [selectRegime_of_covers (r := .c) he] at h
  · rwa [selectRegime_of_covers (r := .d) he] at h

/-- Settles O28: the regime's bounds on the working state are those of the committed registers. -/
theorem dtoaResultSize : Obligations.DtoaResultSize := by
  intro s fc haccepts
  obtain ⟨w, hw, hresult⟩ := dtoa_of_accepts haccepts
  have hempty := commitWork_len_eq_zero_iff s hresult.length
  have hdp := hresult.dp_bounds haccepts.2.2
  refine ⟨_, exec_dtoa_of_success hw, ?_⟩
  simp only [State.complete_len, State.complete_dp, commitWork_len_toNat s hresult.length, commitWork_dp_toInt s hdp,
    ne_eq, hempty]
  refine ⟨hresult.length, hdp.1, hdp.2, hresult.empty, fun hne => pointRange_of_exponent (hresult.point hne), ?_⟩
  intro he
  by_contra hne
  have hpoint := hresult.point hne
  rwa [selectRegime_of_covers (r := .e) he] at hpoint

/-! ### What a result depends on (R96, R101) -/

theorem complete_bufAt (s : State) (i : Nat) : s.complete.bufAt i = s.bufAt i := rfl

/-- Up to the terminator the committed bytes are the working state's; no draw shows. -/
theorem commitWork_bufAt_of_le {w : Work} (s : State) {i : Nat} (hlen : w.digits.length ≤ 36)
    (h : i ≤ w.digits.length) : (s.commitWork w).bufAt i = w.digits[i]?.getD 0x00#8 := by
  rw [State.commitWork_bufAt w s (by omega)]
  rcases h.eq_or_lt with rfl | hlt
  · rw [committedByte_terminator, List.getElem?_eq_none le_rfl]
    rfl
  · rw [committedByte_digit w _ _ hlt, List.getElem?_eq_getElem hlt]
    rfl

/-- Settles O33: both states commit the same working state. -/
theorem dtoaReadsOnlyItsInput : Obligations.DtoaReadsOnlyItsInput := by
  intro s s' fc hv haccepts
  obtain ⟨w, hw, hresult⟩ := dtoa_of_accepts haccepts
  have hw' : dtoa s'.v fc = .success w := by rw [← hv, hw]
  refine ⟨(s.commitWork w).complete, (s'.commitWork w).complete, exec_dtoa_of_success hw, exec_dtoa_of_success hw',
    by simp, by simp, by simp, fun i hi => ?_⟩
  rw [State.complete_len, commitWork_len_toNat s hresult.length] at hi
  rw [complete_bufAt, complete_bufAt, commitWork_bufAt_of_le s hresult.length hi,
    commitWork_bufAt_of_le s' hresult.length hi]

/-! ### The invariant of the result registers -/

/-- A committed result meets the invariant, with the command ended. -/
theorem commitWork_complete_inv {r : Regime} {fc : Nat} {w : Work} (s : State) (h : r.Result fc w) (hfc : fc ≤ 20) :
    (s.commitWork w).complete.Inv := by
  have hlen : (s.commitWork w).complete.len.toNat = w.digits.length := commitWork_len_toNat s h.length
  have hdp : (s.commitWork w).complete.dp.toInt = w.dp := commitWork_dp_toInt s (h.dp_bounds hfc)
  have hbyte : ∀ i (hi : i < w.digits.length), (s.commitWork w).complete.bufAt i = w.digits[i] := fun i hi => by
    rw [complete_bufAt, commitWork_bufAt_of_le s h.length hi.le, List.getElem?_eq_getElem hi]
    rfl
  refine ⟨hlen ▸ h.length, hdp ▸ (h.dp_bounds hfc).1, hdp ▸ (h.dp_bounds hfc).2, ?digits, ?terminator, ?first, ?last,
    fun f hf => by simp at hf⟩ <;> rw [hlen]
  case digits =>
    intro i hi
    rw [hbyte i hi]
    exact h.trimmed.digits _ (List.getElem_mem hi)
  case terminator =>
    rw [complete_bufAt, commitWork_bufAt_of_le s h.length le_rfl, List.getElem?_eq_none le_rfl]
    rfl
  case first =>
    intro hpos hzero
    rw [hbyte 0 hpos] at hzero
    exact h.trimmed.first (by rw [List.head?_eq_getElem?, List.getElem?_eq_getElem hpos, hzero]; rfl)
  case last =>
    intro hpos hzero
    rw [hbyte _ (by omega)] at hzero
    exact h.trimmed.last (by rw [List.getLast?_eq_getElem?, List.getElem?_eq_getElem (by omega), hzero]; rfl)

end Sys2Proof.Machine
end

section
/-! PROOFS. The commands on U128 (spec/40_u128.md) and the write set of every command (spec/10_state.md R35). -/

namespace Sys2Proof.Machine

/-! ### The U128 commands with legal operands -/

/-- Settles O12: a product below 2^128 does not overflow. -/
theorem mulWritesTheExactProduct : Obligations.MulWritesTheExactProduct := by
  intro s h
  have hfits : (mul128 s.a s.m).2 = false := by rw [mul128_snd, decide_eq_false (by omega)]
  simp only [exec, execMul, hfits, Bool.false_eq_true, if_false]
  rfl

theorem shiftLegal_iff (k : Int) : shiftLegal k = true ↔ -64 ≤ k ∧ k ≤ 64 := by
  rw [shiftLegal, Bool.and_eq_true, decide_eq_true_iff, decide_eq_true_iff]
  rfl

theorem powerLegal_iff (p : Nat) : powerLegal p = true ↔ p ≤ 127 := decide_eq_true_iff

theorem posLegal_iff (pos : Nat) : posLegal pos = true ↔ pos ≤ 127 := decide_eq_true_iff

/-- The shift as arithmetic on the value (R79). -/
theorem shift128_eq_ofNat (a : U128) (k : Int) :
    shift128 a k =
      BitVec.ofNat 128 (if 0 ≤ k then a.toNat / 2 ^ k.toNat else a.toNat * 2 ^ (-k).toNat % 2 ^ 128) := by
  apply BitVec.eq_of_toNat_eq
  rw [BitVec.toNat_ofNat]
  split
  · rename_i h
    rw [shift128_toNat_of_nonneg a h, Nat.mod_eq_of_lt ((Nat.div_le_self _ _).trans_lt a.isLt)]
  · rename_i h
    rw [shift128_toNat_of_neg a (by omega), Nat.mod_mod]

/-- Settles O13: the amount is legal, and the shift is the arithmetic one. -/
theorem shfIsTheLogicalShift : Obligations.ShfIsTheLogicalShift := by
  intro s k hlow hhigh
  simp only [exec, execShf, if_pos ((shiftLegal_iff k).2 ⟨hlow, hhigh⟩), shift128_eq_ofNat]
  rfl

/-- Settles O14: the power is legal, and a quotient below 2^32 fits `Q`. -/
theorem divp2WritesQuotientAndRemainder : Obligations.Divp2WritesQuotientAndRemainder := by
  intro s p hp hfits
  simp only [exec, execDivp2, if_pos ((powerLegal_iff p).2 hp), divmodp2_eq, decide_eq_false (not_le.2 hfits),
    Bool.false_eq_true, if_false]
  rfl

theorem bitat_eq (a : U128) (pos : Nat) : bitat a pos = decide (a.toNat / 2 ^ pos % 2 = 1) :=
  Nat.testBit_eq_decide_div_mod_eq

/-- Settles O15: the position is legal. -/
theorem bitatWritesTheSelectedBit : Obligations.BitatWritesTheSelectedBit := by
  intro s pos hpos
  simp only [exec, execBitat, if_pos ((posLegal_iff pos).2 hpos), bitat_eq]
  rfl

theorem iszero_eq (a : U128) : iszero a = decide (a.toNat = 0) := by
  rw [Bool.eq_iff_iff, iszero_iff, decide_eq_true_iff]

/-- Settles O16: ISZ has one branch, and it writes the test. -/
theorem iszTestsForZero : Obligations.IszTestsForZero := by
  intro s
  simp only [exec, execIsz, iszero_eq]
  rfl

/-! ### The write set of every command (R35) -/

/-- The states agree in every register outside the write set. -/
structure State.AgreesOutside (w : WriteSet) (s t : State) : Prop where
  a : w.a = false → t.a = s.a
  q : w.q = false → t.q = s.q
  z : w.z = false → t.z = s.z
  bit : w.bit = false → t.bit = s.bit
  ok : w.ok = false → t.ok = s.ok
  len : w.result = false → t.len = s.len
  dp : w.result = false → t.dp = s.dp
  buf : w.result = false → t.buf = s.buf

/-- A draw of a write set, with a fault recorded, keeps every register outside the set. -/
theorem State.unspecify_agreesOutside (w : WriteSet) (c : Cause) (s : State) :
    s.AgreesOutside w ((s.unspecify w).raiseFault c).complete := by
  constructor <;> intro h <;> simp [h]

/-- A fault recorded alone keeps every register. -/
theorem State.raiseFault_agreesOutside (w : WriteSet) (c : Cause) (s : State) :
    s.AgreesOutside w (s.raiseFault c).complete := by
  constructor <;> simp

theorem exec_agreesOutside {i : Instr} {s t : State} (h : exec i s = .next t) : s.AgreesOutside (writeSet i) t := by
  cases i with
  | nop =>
    cases h
    constructor <;> simp
  | mul =>
    simp only [exec, execMul] at h
    split at h <;> cases h
    · exact s.unspecify_agreesOutside _ _
    · constructor <;> simp [writeSet]
  | shf k =>
    simp only [exec, execShf] at h
    split at h <;> cases h
    · constructor <;> simp [writeSet]
    · exact s.raiseFault_agreesOutside _ _
  | divp2 p =>
    simp only [exec, execDivp2] at h
    split at h
    · split at h <;> cases h
      · exact s.unspecify_agreesOutside _ _
      · constructor <;> simp [writeSet]
    · cases h
      exact s.raiseFault_agreesOutside _ _
  | bitat pos =>
    simp only [exec, execBitat] at h
    split at h <;> cases h
    · constructor <;> simp [writeSet]
    · exact s.raiseFault_agreesOutside _ _
  | isz =>
    cases h
    constructor <;> simp [writeSet]
  | dtoa fc =>
    simp only [exec, execDtoa] at h
    split at h <;> cases h
    · exact s.raiseFault_agreesOutside _ _
    · constructor <;> simp [writeSet]
    · exact s.unspecify_agreesOutside _ _
    · constructor <;> simp [writeSet]

/-- A recorded fault stands through every command (R143). -/
theorem exec_fault_of_faulted {i : Instr} {s t : State} {c : Cause} (h : exec i s = .next t) (hf : s.fault = some c) :
    t.fault = some c := by
  obtain ⟨-, -, -, -, -, -, hkept | ⟨d, -, -, -, hfirst⟩⟩ := exec_next_facts h
  · rw [hkept, hf]
  · rw [hfirst, hf]
    rfl

/-- NOP and ISZ raise no fault (R144). -/
theorem exec_fault_of_nop_or_isz {i : Instr} {s t : State} (h : exec i s = .next t) (hi : i = .nop ∨ i = .isz) :
    t.fault = s.fault := by
  rcases hi with rfl | rfl <;> cases h <;> rfl

section writeSet
variable (i : Instr)

theorem writeSet_a_iff : (writeSet i).a = true ↔ i = .mul ∨ (∃ k, i = .shf k) ∨ ∃ p, i = .divp2 p := by
  cases i <;> simp [writeSet]

theorem writeSet_q_iff : (writeSet i).q = true ↔ ∃ p, i = .divp2 p := by cases i <;> simp [writeSet]

theorem writeSet_z_iff : (writeSet i).z = true ↔ i = .isz := by cases i <;> simp [writeSet]

theorem writeSet_bit_iff : (writeSet i).bit = true ↔ ∃ pos, i = .bitat pos := by cases i <;> simp [writeSet]

theorem writeSet_ok_iff : (writeSet i).ok = true ↔ ∃ fc, i = .dtoa fc := by cases i <;> simp [writeSet]

theorem writeSet_result_iff : (writeSet i).result = true ↔ ∃ fc, i = .dtoa fc := by cases i <;> simp [writeSet]

variable {i}

theorem writeSet_a_eq_false (hmul : i ≠ .mul) (hshf : ∀ k, i ≠ .shf k) (hdiv : ∀ p, i ≠ .divp2 p) :
    (writeSet i).a = false := by
  simp [← Bool.not_eq_true, writeSet_a_iff, hmul, hshf, hdiv]

theorem writeSet_q_eq_false (h : ∀ p, i ≠ .divp2 p) : (writeSet i).q = false := by
  simp [← Bool.not_eq_true, writeSet_q_iff, h]

theorem writeSet_z_eq_false (h : i ≠ .isz) : (writeSet i).z = false := by
  simp [← Bool.not_eq_true, writeSet_z_iff, h]

theorem writeSet_bit_eq_false (h : ∀ pos, i ≠ .bitat pos) : (writeSet i).bit = false := by
  simp [← Bool.not_eq_true, writeSet_bit_iff, h]

theorem writeSet_ok_eq_false (h : ∀ fc, i ≠ .dtoa fc) : (writeSet i).ok = false := by
  simp [← Bool.not_eq_true, writeSet_ok_iff, h]

theorem writeSet_result_eq_false (h : ∀ fc, i ≠ .dtoa fc) : (writeSet i).result = false := by
  simp [← Bool.not_eq_true, writeSet_result_iff, h]

end writeSet

/-- Settles O53: what the write set of each command leaves out. -/
theorem commandsWriteOnlyTheirWriteSet : Obligations.CommandsWriteOnlyTheirWriteSet := by
  intro i s
  obtain ⟨t, ht⟩ := exec_answers_next i s
  obtain ⟨hflight, hinputs, hread, -, hm, hv, -⟩ := exec_next_facts ht
  have hkept := exec_agreesOutside ht
  refine ⟨t, ht, hm, hv, hflight, hinputs, hread, fun hmul hshf hdiv => hkept.a (writeSet_a_eq_false hmul hshf hdiv),
    fun h => hkept.q (writeSet_q_eq_false h), fun h => hkept.bit (writeSet_bit_eq_false h),
    fun h => hkept.z (writeSet_z_eq_false h), fun h => ?_, ?_⟩
  · have hresult := writeSet_result_eq_false h
    exact ⟨hkept.ok (writeSet_ok_eq_false h), hkept.len hresult, hkept.dp hresult, hkept.buf hresult⟩
  · rintro (hf | hi)
    · obtain ⟨c, hc⟩ := Option.ne_none_iff_exists'.1 hf
      rw [exec_fault_of_faulted ht hc, hc]
    · exact exec_fault_of_nop_or_isz ht hi

end Sys2Proof.Machine
end

section
/-! PROOFS. What a step can do, and what every step keeps: the first fault (spec/60_exceptions.md R143) and the
invariant of the result registers and of the command in progress. -/

namespace Sys2Proof.Machine

/-! ### A step, case by case -/

/-- What a host access does to the unit, before a command in progress may complete. -/
def Input.access : Input → State → State
  | .read r, s => hostRead r s
  | .write r d latency, s => hostWrite r d latency s
  | .wait, s => waitRead s
  | .reset, s => s
  | .secondHost, s => s

theorem serve_of_access {x : Input} (s : State) (h : x.isAccess = true) :
    serve x s = settle (x.access s.countAccess) := by
  cases x with
  | read | write | wait => rfl
  | reset | secondHost => cases h

/-- A step with a next state is a reset, a host access, or a turn without input. -/
theorem step_cases {s t : State} (h : step s = .next t) :
    (∃ rest, s.inputs = .reset :: rest ∧ t = ((s.setInputs rest).setReadData none).applyReset) ∨
    (∃ x rest, s.inputs = x :: rest ∧ x.isAccess = true ∧
      settle (x.access ((s.setInputs rest).setReadData none).countAccess) = .next t) ∨
    (s.inputs = [] ∧ s.inFlight = none ∧ t = s.setReadData none) ∨
    (∃ f, s.inputs = [] ∧ s.inFlight = some f ∧ exec f.cmd (s.setReadData none) = .next t) := by
  cases hin : s.inputs with
  | nil =>
    cases hf : s.inFlight with
    | none =>
      rw [step_of_no_input_idle hin hf] at h
      cases h
      exact .inr (.inr (.inl ⟨rfl, rfl, rfl⟩))
    | some f =>
      rw [step_of_no_input_busy hin hf] at h
      exact .inr (.inr (.inr ⟨f, rfl, rfl, h⟩))
  | cons x rest =>
    rw [step_of_input hin] at h
    cases x with
    | read | write | wait => exact .inr (.inl ⟨_, rest, rfl, rfl, (serve_of_access _ rfl).symm.trans h⟩)
    | reset =>
      cases h
      exact .inl ⟨rest, rfl, rfl⟩
    | secondHost => cases h

/-! ### What every host access keeps -/

/-- After a host access: the result registers and a recorded fault stand, and a command in progress stands or is one
just decoded. -/
structure State.KeptByAccess (s t : State) : Prop where
  len : t.len = s.len
  dp : t.dp = s.dp
  buf : t.buf = s.buf
  fault : ∀ c, s.fault = some c → t.fault = some c
  inFlight : t.inFlight = s.inFlight ∨
    ∃ w i latency, decode w = .ok i ∧ t.inFlight = some { cmd := i, left := latency }

theorem State.raiseFault_keptByAccess (c : Cause) (s : State) : s.KeptByAccess (s.raiseFault c) :=
  ⟨by simp, by simp, by simp, fun d hd => by simp [hd], .inl (by simp)⟩

theorem hostRead_keptByAccess (r : Byte) (s : State) : s.KeptByAccess (hostRead r s) := by
  rcases hostRead_cases r s with ⟨-, h⟩ | ⟨_, -, h⟩ | ⟨_, _, -, -, -, h⟩ <;> rw [h]
  · exact ⟨rfl, rfl, rfl, fun c hc => by simp [hc], .inl rfl⟩
  · exact ⟨rfl, rfl, rfl, fun c hc => hc, .inl rfl⟩
  · exact ⟨rfl, rfl, rfl, fun c hc => hc, .inl rfl⟩

theorem hostWrite_keptByAccess (r : Byte) (d : Word64) (latency : Nat) (s : State) :
    s.KeptByAccess (hostWrite r d latency s) := by
  cases hi : s.inFlight with
  | some f =>
    rw [hostWrite_of_busy r d latency hi]
    exact s.raiseFault_keptByAccess _
  | none =>
    cases hf : s.fault with
    | some c =>
      rw [hostWrite_of_faulted r d latency hi hf]
      exact ⟨rfl, rfl, rfl, fun _ h => h, .inl rfl⟩
    | none =>
      rcases hostWrite_cases r d latency hi hf with ⟨-, h⟩ | ⟨-, h⟩ | ⟨-, h⟩ | ⟨-, h⟩ | ⟨-, i, hdec, -, h⟩ | ⟨-, h⟩ |
        ⟨-, h⟩ <;> rw [h]
      case inl | inr.inl | inr.inr.inl | inr.inr.inr.inl => exact ⟨rfl, rfl, rfl, fun _ h => h, .inl rfl⟩
      case inr.inr.inr.inr.inl => exact ⟨rfl, rfl, rfl, fun _ h => h, .inr ⟨_, i, latency, hdec, rfl⟩⟩
      case inr.inr.inr.inr.inr.inl | inr.inr.inr.inr.inr.inr => exact s.raiseFault_keptByAccess _

theorem waitRead_keptByAccess (s : State) : s.KeptByAccess (waitRead s) := by
  obtain ⟨hlen, hdp, hbuf, hfault, hflight⟩ := hostRead_keptByAccess statusNumber s
  rcases waitRead_cases s with ⟨-, h⟩ | ⟨-, h⟩ <;> rw [h] <;> exact ⟨hlen, hdp, hbuf, hfault, hflight⟩

theorem access_keptByAccess (x : Input) (s : State) : s.KeptByAccess (x.access s) := by
  cases x with
  | read r => exact hostRead_keptByAccess r s
  | write r d latency => exact hostWrite_keptByAccess r d latency s
  | wait => exact waitRead_keptByAccess s
  | reset | secondHost => exact ⟨rfl, rfl, rfl, fun _ h => h, .inl rfl⟩

/-! ### The first fault -/

theorem settle_fault_of_faulted {s t : State} {c : Cause} (h : settle s = .next t) (hf : s.fault = some c) :
    t.fault = some c := by
  rcases settle_cases h with ⟨-, rfl⟩ | ⟨i, -, hexec⟩ | ⟨i, n, -, rfl⟩
  · exact hf
  · exact exec_fault_of_faulted hexec hf
  · exact hf

/-- Settles O50: an access and a completion keep a recorded fault, so only a reset is left. -/
theorem firstFaultIsKeptUntilReset : Obligations.FirstFaultIsKeptUntilReset := by
  intro s t c hf hstep
  rcases step_cases hstep with ⟨rest, hin, -⟩ | ⟨x, rest, -, -, hsettle⟩ | ⟨-, -, rfl⟩ | ⟨f, -, -, hexec⟩
  · exact .inr ⟨rest, hin⟩
  · exact .inl (settle_fault_of_faulted hsettle ((access_keptByAccess x _).fault c (by simpa using hf)))
  · exact .inl hf
  · exact .inl (exec_fault_of_faulted hexec hf)

/-! ### Reset -/

theorem applyReset_statusWord (s : State) : s.applyReset.statusWord = 0#32 := by
  change State.reset.statusWord = 0#32
  decide

/-- Settles O49: a reset is served whatever the unit does. -/
theorem resetGivesTheResetState : Obligations.ResetGivesTheResetState := by
  intro s rest hin
  refine ⟨((s.setInputs rest).setReadData none).applyReset, step_of_input hin, ?_⟩
  exact ⟨rfl, rfl, rfl, rfl, rfl, rfl, rfl, rfl, rfl, rfl, rfl, rfl, applyReset_statusWord _⟩

/-- Settles O58: after reset LEN is 0, so no digit is asked for. -/
theorem invariantHoldsAtReset : Obligations.InvariantHoldsAtReset where
  lenBound := by decide
  dpLow := by decide
  dpHigh := by decide
  digits := fun i hi => absurd hi (Nat.not_lt_zero i)
  terminator := by decide
  noLeadingZero := fun h => absurd h (by decide)
  noTrailingZero := fun h => absurd h (by decide)
  inFlight := fun f hf => by simp at hf

/-! ### The invariant -/

/-- The invariant is one of the result registers (it holds with the command ended) and one of the command in
progress. -/
theorem inv_iff (s : State) :
    s.Inv ↔ s.complete.Inv ∧ ∀ f, s.inFlight = some f → 1 ≤ f.left ∧ f.cmd.wellFormed = true := by
  constructor
  · rintro ⟨hlen, hlow, hhigh, hdigits, hend, hfirst, hlast, hflight⟩
    exact ⟨⟨hlen, hlow, hhigh, hdigits, hend, hfirst, hlast, fun f hf => by simp at hf⟩, hflight⟩
  · rintro ⟨⟨hlen, hlow, hhigh, hdigits, hend, hfirst, hlast, -⟩, hflight⟩
    exact ⟨hlen, hlow, hhigh, hdigits, hend, hfirst, hlast, hflight⟩

/-- The registers' part reads LEN, DP and BUF alone. -/
theorem complete_inv_congr {s t : State} (h : s.complete.Inv) (hlen : t.len = s.len) (hdp : t.dp = s.dp)
    (hbuf : t.buf = s.buf) : t.complete.Inv := by
  have hat : ∀ i, t.bufAt i = s.bufAt i := fun i => by rw [State.bufAt, State.bufAt, hbuf]
  obtain ⟨hlenBound, hlow, hhigh, hdigits, hend, hfirst, hlast, -⟩ := h
  simp only [State.complete_len, State.complete_dp, complete_bufAt] at *
  refine ⟨?_, ?_, ?_, ?_, ?_, ?_, ?_, fun f hf => by simp at hf⟩ <;>
    simp only [State.complete_len, State.complete_dp, complete_bufAt, hlen, hdp, hat] <;> assumption

theorem inv_of_idle {s : State} (h : s.complete.Inv) (hi : s.inFlight = none) : s.Inv :=
  (inv_iff s).2 ⟨h, fun f hf => by simp [hi] at hf⟩

/-- DTOA stops at the input check or the gate, or it succeeds: no internal check fails (R113, R114). -/
theorem dtoa_cases (v : Word64) (fc : Nat) :
    dtoa v fc = .inputFault ∨ dtoa v fc = .rejected ∨
      ∃ r w, dtoa v fc = .success w ∧ fc ≤ 20 ∧ Regime.Result r fc w := by
  by_cases hpasses : passesInputCheck v
  · by_cases hgate : 20 < (decompose v).2 ∨ 20 < fc
    · exact .inr (.inl (dtoa_of_gate_closed hpasses hgate))
    · have haccepts : dtoaAccepts v fc := ⟨hpasses, by omega, by omega⟩
      obtain ⟨w, hw, hresult⟩ := dtoa_of_accepts haccepts
      exact .inr (.inr ⟨_, w, hw, haccepts.2.2, hresult⟩)
  · exact .inl (dtoa_of_inputRejected fc hpasses)

/-- Every command keeps the registers' part of the invariant: a DTOA that succeeds by its result, and everything else by
writing no result. -/
theorem exec_inv {i : Instr} {s t : State} (h : s.complete.Inv) (hexec : exec i s = .next t) : t.Inv := by
  have hidle : t.inFlight = none := (exec_next_facts hexec).1
  have hkept := exec_agreesOutside hexec
  suffices hresult : t.complete.Inv from inv_of_idle hresult hidle
  cases i with
  | nop | mul | shf | divp2 | bitat | isz => exact complete_inv_congr h (hkept.len rfl) (hkept.dp rfl) (hkept.buf rfl)
  | dtoa fc =>
    rcases dtoa_cases s.v fc with hd | hd | ⟨r, w, hd, hfc, hresult⟩ <;> simp only [exec, execDtoa, hd] at hexec <;>
      cases hexec
    · exact complete_inv_congr h (by simp) (by simp) (by simp)
    · exact complete_inv_congr h rfl rfl rfl
    · exact commitWork_complete_inv s hresult hfc

/-- A word that decodes gives a command whose operand fits its field (R61). -/
theorem decode_wellFormed {w : Word32} {i : Instr} (h : decode w = .ok i) : i.wellFormed = true := by
  have hlow := (immField w).le_toInt
  have hhigh := (immField w).toInt_lt
  have hbyte := (immField w).isLt
  simp only [decode, noOperand] at h
  split_ifs at h <;> cases h <;> simp [Instr.wellFormed] <;> omega

/-- After an access the command in progress completes now, or finds one more access busy. -/
theorem settle_inv {s t : State} (h : s.complete.Inv) (hwf : ∀ f, s.inFlight = some f → f.cmd.wellFormed = true)
    (hsettle : settle s = .next t) : t.Inv := by
  rcases settle_cases hsettle with ⟨hidle, rfl⟩ | ⟨i, -, hexec⟩ | ⟨i, n, hpending, rfl⟩
  · exact inv_of_idle h hidle
  · exact exec_inv h hexec
  · refine (inv_iff _).2 ⟨h, fun f hf => ⟨?_, hwf f hf⟩⟩
    obtain rfl : { cmd := i, left := n + 1 } = f := Option.some.inj (hpending.symm.trans hf)
    exact Nat.le_add_left 1 n

theorem countAccess_inFlight (s : State) :
    s.countAccess.inFlight = s.inFlight.map fun f => { f with left := f.left - 1 } :=
  congrArg State.inFlight s.countAccess_eq

theorem countAccess_complete_inv {s : State} (h : s.complete.Inv) : s.countAccess.complete.Inv := by
  rw [State.countAccess_eq]
  exact complete_inv_congr h rfl rfl rfl

/-- A host access writes no result register, and starts only a decoded command. -/
theorem access_settle_inv {x : Input} {s t : State} (h : s.complete.Inv)
    (hwf : ∀ f, s.inFlight = some f → f.cmd.wellFormed = true) (hsettle : settle (x.access s.countAccess) = .next t) :
    t.Inv := by
  obtain ⟨hlen, hdp, hbuf, -, hflight⟩ := access_keptByAccess x s.countAccess
  refine settle_inv (complete_inv_congr (countAccess_complete_inv h) hlen hdp hbuf) (fun f hf => ?_) hsettle
  rcases hflight with hsame | ⟨w, i, latency, hdecode, hstarted⟩
  · rw [hsame, countAccess_inFlight] at hf
    obtain ⟨g, hg, rfl⟩ := Option.map_eq_some_iff.1 hf
    exact hwf g hg
  · rw [hstarted] at hf
    cases hf
    exact decode_wellFormed hdecode

/-- Settles O59, case by case over what a step can do. -/
theorem everyStepKeepsTheInvariant : Obligations.EveryStepKeepsTheInvariant := by
  intro s t hinv hstep
  obtain ⟨hresult, hflight⟩ := (inv_iff s).1 hinv
  rcases step_cases hstep with ⟨rest, -, rfl⟩ | ⟨x, rest, -, -, hsettle⟩ | ⟨-, hidle, rfl⟩ | ⟨f, -, -, hexec⟩
  · exact inv_of_idle (complete_inv_congr (inv_iff _ |>.1 invariantHoldsAtReset).1 rfl rfl rfl) rfl
  · exact access_settle_inv (s := (s.setInputs rest).setReadData none) (complete_inv_congr hresult rfl rfl rfl)
      (fun f hf => (hflight f hf).2) hsettle
  · exact inv_of_idle (complete_inv_congr hresult rfl rfl rfl) hidle
  · exact exec_inv (s := s.setReadData none) (complete_inv_congr hresult rfl rfl rfl) hexec

end Sys2Proof.Machine
end

section
/-! PROOFS. The STATUS word (spec/10_state.md R25), and the host's reads and writes of single registers
(spec/20_memory.md R40 to R44). -/

namespace Sys2Proof.Machine

/-! ### The bits of STATUS -/

/-- Bits 4 to 0 of STATUS: OK, BIT, Z, FAULT, BUSY. -/
def State.flags (s : State) : BitVec 5 :=
  BitVec.ofBool s.ok ++ BitVec.ofBool s.bit ++ BitVec.ofBool s.z ++ BitVec.ofBool s.faulted ++ BitVec.ofBool s.busy

theorem flags_getLsbD (s : State) : s.flags.getLsbD 0 = s.busy ∧ s.flags.getLsbD 1 = s.faulted ∧
    s.flags.getLsbD 2 = s.z ∧ s.flags.getLsbD 3 = s.bit ∧ s.flags.getLsbD 4 = s.ok := by
  have key : ∀ ok bit z faulted busy : Bool,
      let flags : BitVec 5 := BitVec.ofBool ok ++ BitVec.ofBool bit ++ BitVec.ofBool z ++ BitVec.ofBool faulted ++
        BitVec.ofBool busy
      flags.getLsbD 0 = busy ∧ flags.getLsbD 1 = faulted ∧ flags.getLsbD 2 = z ∧ flags.getLsbD 3 = bit ∧
        flags.getLsbD 4 = ok := by decide
  exact key s.ok s.bit s.z s.faulted s.busy

/-- The flags, then three reserved bits, then CAUSE, then reserved bits only. -/
theorem statusWord_getLsbD (s : State) (i : Nat) :
    s.statusWord.getLsbD i =
      if i < 5 then s.flags.getLsbD i else if i < 8 then false else s.causeField.getLsbD (i - 8) := by
  change (((0#20 ++ s.causeField) ++ 0#3) ++ s.flags).getLsbD i = _
  rw [BitVec.getLsbD_append, BitVec.getLsbD_append, BitVec.getLsbD_append]
  simp only [BitVec.getLsbD_zero, show i - 5 - 3 = i - 8 by omega, show i - 5 < 3 ↔ i < 8 by omega]
  split
  · rfl
  split
  · rfl
  · rw [ite_eq_left_iff]
    exact fun h => (BitVec.getLsbD_of_ge _ _ (not_lt.1 h)).symm

theorem statusWord_flag (s : State) {i : Nat} (h : i < 5) : s.statusWord.getLsbD i = s.flags.getLsbD i := by
  rw [statusWord_getLsbD, if_pos h]

theorem statusWord_reserved (s : State) : s.statusWord.extractLsb' 5 3 = 0#3 := by
  apply BitVec.eq_of_getLsbD_eq
  intro i hi
  rw [BitVec.getLsbD_extractLsb', statusWord_getLsbD, if_neg (by omega), if_pos (by omega), BitVec.getLsbD_zero,
    Bool.and_false]

theorem statusWord_cause (s : State) : s.statusWord.extractLsb' 8 4 = s.causeField := by
  apply BitVec.eq_of_getLsbD_eq
  intro i hi
  rw [BitVec.getLsbD_extractLsb', statusWord_getLsbD, if_neg (by omega), if_neg (by omega), Nat.add_sub_cancel_left,
    decide_eq_true hi, Bool.true_and]

theorem statusWord_getLsbD_of_ge (s : State) {i : Nat} (h : 12 ≤ i) : s.statusWord.getLsbD i = false := by
  rw [statusWord_getLsbD, if_neg (by omega), if_neg (by omega)]
  exact BitVec.getLsbD_of_ge _ _ (by omega)

theorem statusWord_high (s : State) : s.statusWord.extractLsb' 12 20 = 0#20 := by
  apply BitVec.eq_of_getLsbD_eq
  intro i hi
  rw [BitVec.getLsbD_extractLsb', statusWord_getLsbD_of_ge s (by omega), BitVec.getLsbD_zero, Bool.and_false]

theorem causeField_of_fault {s : State} {c : Cause} (h : s.fault = some c) : s.causeField = c.code := by
  rw [State.causeField, h]

theorem causeField_of_no_fault {s : State} (h : s.fault = none) : s.causeField = 0#4 := by
  rw [State.causeField, h]

/-- No cause has the code of its absence. -/
theorem Cause.code_ne_zero (c : Cause) : c.code ≠ 0#4 := by
  cases c <;> decide

/-- Settles O43, field by field. -/
theorem statusFieldsAndReservedBits : Obligations.StatusFieldsAndReservedBits := by
  intro s
  obtain ⟨hbusy, hfault, hz, hbit, hok⟩ := flags_getLsbD s
  refine ⟨(statusWord_flag s (by decide)).trans hbusy, (statusWord_flag s (by decide)).trans hfault,
    (statusWord_flag s (by decide)).trans hz, (statusWord_flag s (by decide)).trans hbit,
    (statusWord_flag s (by decide)).trans hok, statusWord_reserved s, fun h => ?_, fun c h => ?_, statusWord_high s,
    rfl, rfl, rfl, rfl, rfl, rfl, rfl, rfl, rfl, rfl⟩
  · rw [statusWord_cause, causeField_of_no_fault h]
  · exact ⟨by rw [statusWord_cause, causeField_of_fault h], c.code_ne_zero⟩

/-! ### What the host reads (R40) -/

theorem view_aLo (s : State) : s.view .aLo = BitVec.ofNat 64 (s.a.toNat % 2 ^ 64) := by
  apply BitVec.eq_of_toNat_eq
  simp [State.view]

theorem view_aHi (s : State) : s.view .aHi = BitVec.ofNat 64 (s.a.toNat / 2 ^ 64) := by
  apply BitVec.eq_of_toNat_eq
  simp [State.view, Nat.shiftRight_eq_div_pow]

theorem view_q (s : State) : s.view .q = BitVec.ofNat 64 s.q.toNat := (BitVec.ofNat_toNat 64 s.q).symm

theorem view_len (s : State) : s.view .len = BitVec.ofNat 64 s.len.toNat := (BitVec.ofNat_toNat 64 s.len).symm

theorem view_dp (s : State) : s.view .dp = BitVec.ofInt 64 s.dp.toInt := rfl

theorem bufAt_eq (s : State) (i : Fin 42) : s.bufAt i.val = s.buf[i.val] := by
  simp [State.bufAt]

theorem view_buf (s : State) (i : Fin 42) : s.view (.buf i) = BitVec.ofNat 64 (s.bufAt i).toNat := by
  rw [bufAt_eq, BitVec.ofNat_toNat]
  rfl

/-- A read of a register that no command in progress writes returns its value and changes nothing (R43). -/
theorem hostRead_outside {s : State} {r : Byte} {reg : Reg} (hr : Reg.ofNumber r = some reg)
    (hout : ∀ f, s.inFlight = some f → reg.namesStateOf (writeSet f.cmd) = false) :
    hostRead r s = { s with readData := some (s.view reg) } := by
  rcases hostRead_cases r s with ⟨hnone, -⟩ | ⟨reg', hr', h⟩ | ⟨reg', f, hr', hf, hin, -⟩
  · rw [hr] at hnone
    cases hnone
  · obtain rfl : reg' = reg := Option.some.inj (hr'.symm.trans hr)
    exact h
  · obtain rfl : reg' = reg := Option.some.inj (hr'.symm.trans hr)
    rw [hout f hf] at hin
    cases hin

/-- A read of a register that the command in progress writes returns its view of a draw (R43, R167). -/
theorem hostRead_inside {s : State} {f : InFlight} {r : Byte} {reg : Reg} (hf : s.inFlight = some f)
    (hr : Reg.ofNumber r = some reg) (hin : reg.namesStateOf (writeSet f.cmd) = true) :
    hostRead r s = { s with
      readData := some ((s.unspecify (writeSet f.cmd)).view reg), draws := s.draws + 1 } := by
  have hdraw : hostRead r s = (s.setReadData (some ((s.unspecify (writeSet f.cmd)).view reg))).countDraw := by
    simp only [hostRead, hr, hf, if_pos hin]
  exact hdraw

theorem Reg.ofNumber_buf {i : Nat} (h : i < 42) : Reg.ofNumber (BitVec.ofNat 8 (0x40 + i)) = some (.buf ⟨i, h⟩) :=
  Reg.ofNumber_number (.buf ⟨i, h⟩)

theorem Reg.ofNumber_of_buf_range {r : Byte} (hlow : 0x40 ≤ r.toNat) (hhigh : r.toNat ≤ 0x69) :
    ∃ i, Reg.ofNumber r = some (.buf i) := by
  have hnumber : r = BitVec.ofNat 8 (0x40 + (r.toNat - 0x40)) := by
    rw [Nat.add_sub_cancel' hlow, BitVec.ofNat_toNat, BitVec.setWidth_eq]
  rw [hnumber]
  exact ⟨_, Reg.ofNumber_buf (by omega)⟩

/-! ### Reads while a command is in progress (R43, R167) -/

/-- The numbers whose registers the command in progress writes: what a read of one returns is a draw. -/
theorem hostRead_inside_of_number {s : State} {f : InFlight} {r : Byte} (hf : s.inFlight = some f)
    (h : ((r = 0x00#8 ∨ r = 0x01#8) ∧ (f.cmd = .mul ∨ (∃ k, f.cmd = .shf k) ∨ ∃ p, f.cmd = .divp2 p)) ∨
      (r = 0x04#8 ∧ ∃ p, f.cmd = .divp2 p) ∨
      ((r = 0x05#8 ∨ r = 0x06#8 ∨ (0x40 ≤ r.toNat ∧ r.toNat ≤ 0x69)) ∧ ∃ fc, f.cmd = .dtoa fc) ∨
      (r = 0x07#8 ∧ (f.cmd = .isz ∨ (∃ n, f.cmd = .bitat n) ∨ ∃ fc, f.cmd = .dtoa fc))) :
    ∃ d, hostRead r s = { s with readData := some d, draws := s.draws + 1 } := by
  rcases h with ⟨rfl | rfl, hcmd⟩ | ⟨rfl, hcmd⟩ | ⟨rfl | rfl | ⟨hlow, hhigh⟩, hcmd⟩ | ⟨rfl, hcmd⟩
  · exact ⟨_, hostRead_inside (reg := .aLo) hf rfl ((writeSet_a_iff _).2 hcmd)⟩
  · exact ⟨_, hostRead_inside (reg := .aHi) hf rfl ((writeSet_a_iff _).2 hcmd)⟩
  · exact ⟨_, hostRead_inside (reg := .q) hf rfl ((writeSet_q_iff _).2 hcmd)⟩
  · exact ⟨_, hostRead_inside (reg := .len) hf rfl ((writeSet_result_iff _).2 hcmd)⟩
  · exact ⟨_, hostRead_inside (reg := .dp) hf rfl ((writeSet_result_iff _).2 hcmd)⟩
  · obtain ⟨i, hi⟩ := Reg.ofNumber_of_buf_range hlow hhigh
    exact ⟨_, hostRead_inside hf hi ((writeSet_result_iff _).2 hcmd)⟩
  · refine ⟨_, hostRead_inside (reg := .status) hf rfl ?_⟩
    rw [Reg.namesStateOf, Bool.or_eq_true, Bool.or_eq_true, writeSet_z_iff, writeSet_bit_iff, writeSet_ok_iff,
      or_assoc]
    exact hcmd

/-- The word of a STATUS read while busy is the STATUS word of a state that agrees outside the write set, and has the
same fault record and command in progress. -/
theorem hostRead_status_word {s : State} {f : InFlight} (hf : s.inFlight = some f) :
    ∃ u, (hostRead 0x07#8 s).readData = some (u.view .status) ∧ u.inFlight = s.inFlight ∧ u.fault = s.fault ∧
      s.AgreesOutside (writeSet f.cmd) u := by
  cases hin : Reg.status.namesStateOf (writeSet f.cmd) with
  | true =>
    refine ⟨s.unspecify (writeSet f.cmd), ?_, rfl, rfl, ?_⟩
    · rw [hostRead_inside (reg := .status) hf rfl hin]
    · constructor <;> intro h <;> simp [h]
  | false =>
    refine ⟨s, ?_, rfl, rfl, ?_⟩
    · rw [hostRead_outside (reg := .status) rfl fun g hg => by rwa [← Option.some.inj (hf.symm.trans hg)]]
    · constructor <;> intro <;> rfl

theorem view_status_getLsbD (s : State) {i : Nat} (h : i < 64) :
    (s.view .status).getLsbD i = s.statusWord.getLsbD i := by
  rw [State.view, BitVec.getLsbD_setWidth, decide_eq_true h, Bool.true_and]

theorem view_status_extract (s : State) {start len : Nat} (h : start + len ≤ 64) :
    (s.view .status).extractLsb' start len = s.statusWord.extractLsb' start len := by
  apply BitVec.eq_of_getLsbD_eq
  intro i hi
  rw [BitVec.getLsbD_extractLsb', BitVec.getLsbD_extractLsb', view_status_getLsbD s (by omega)]

/-- Settles O48: the write set of the command decides, register by register. -/
theorem readsWhileBusy : Obligations.ReadsWhileBusy := by
  intro s f hf
  have hread : ∀ {r : Byte} {reg : Reg}, Reg.ofNumber r = some reg → reg.namesStateOf (writeSet f.cmd) = false →
      hostRead r s = { s with readData := some (s.view reg) } := fun hr hout =>
    hostRead_outside hr fun g hg => by rwa [← Option.some.inj (hf.symm.trans hg)]
  refine ⟨hread (reg := .m) rfl rfl, hread (reg := .v) rfl rfl, hread (reg := .cmd) rfl rfl, ?a, ?q, ?result,
    fun r hr => hostRead_inside_of_number hf hr, ?status⟩
  case a =>
    intro hmul hshf hdiv
    have ha := writeSet_a_eq_false hmul hshf hdiv
    exact ⟨view_aLo s ▸ hread (reg := .aLo) rfl ha, view_aHi s ▸ hread (reg := .aHi) rfl ha⟩
  case q => exact fun h => view_q s ▸ hread (reg := .q) rfl (writeSet_q_eq_false h)
  case result =>
    intro h
    have hresult := writeSet_result_eq_false h
    refine ⟨view_len s ▸ hread (reg := .len) rfl hresult, view_dp s ▸ hread (reg := .dp) rfl hresult, fun i hi => ?_⟩
    rw [hread (Reg.ofNumber_buf hi) hresult, view_buf]
  case status =>
    obtain ⟨u, hd, hflight, hfault, hkept⟩ := hostRead_status_word hf
    obtain ⟨hbusy, hfaulted, hz, hbit, hok⟩ := flags_getLsbD u
    have hflag : ∀ {i}, i < 5 → (u.view .status).getLsbD i = u.flags.getLsbD i := fun hi =>
      (view_status_getLsbD u (by omega)).trans (statusWord_flag u hi)
    refine ⟨_, hd, ?_, ?_, ?_, ?_, ?_, fun h => ?_, fun h => ?_, fun h => ?_⟩
    · rw [hflag (by decide), hbusy, State.busy_eq_true_iff, hflight, hf]
      simp
    · rw [hflag (by decide), hfaulted, State.faulted, hfault]
    · rw [view_status_extract u (by decide), statusWord_cause, State.causeField, hfault]
      rfl
    · rw [view_status_extract u (by decide), statusWord_reserved]
    · apply BitVec.eq_of_getLsbD_eq
      intro i hi
      rw [BitVec.getLsbD_extractLsb', view_status_getLsbD u (by omega), statusWord_getLsbD_of_ge u (by omega),
        Bool.and_false, BitVec.getLsbD_zero]
    · rw [hflag (by decide), hbit, hkept.bit (writeSet_bit_eq_false h)]
    · rw [hflag (by decide), hz, hkept.z (writeSet_z_eq_false h)]
    · rw [hflag (by decide), hok, hkept.ok (writeSet_ok_eq_false h)]

/-! ### Operand writes (R44) -/

/-- Two halves side by side are a sum. -/
theorem append_eq_ofNat (hi lo : Word64) : (hi ++ lo : U128) = BitVec.ofNat 128 (hi.toNat * 2 ^ 64 + lo.toNat) := by
  apply BitVec.eq_of_toNat_eq
  have hhi := hi.isLt
  have hlo := lo.isLt
  rw [BitVec.toNat_ofNat, Nat.mod_eq_of_lt (by omega), BitVec.toNat_append, ← Nat.shiftLeft_add_eq_or_of_lt hlo,
    Nat.shiftLeft_eq]

theorem setALo_eq (d : Word64) (s : State) :
    s.setALo d = { s with a := BitVec.ofNat 128 (s.a.toNat / 2 ^ 64 * 2 ^ 64 + d.toNat) } := by
  have hhalf : (s.a.extractLsb' 64 64).toNat = s.a.toNat / 2 ^ 64 := by
    have := s.a.isLt
    rw [BitVec.extractLsb'_toNat, Nat.shiftRight_eq_div_pow, Nat.mod_eq_of_lt (by omega)]
  rw [← hhalf, ← append_eq_ofNat]
  rfl

theorem setAHi_eq (d : Word64) (s : State) :
    s.setAHi d = { s with a := BitVec.ofNat 128 (d.toNat * 2 ^ 64 + s.a.toNat % 2 ^ 64) } := by
  have hhalf : (s.a.extractLsb' 0 64).toNat = s.a.toNat % 2 ^ 64 := by
    rw [BitVec.extractLsb'_toNat, Nat.shiftRight_zero]
  rw [← hhalf, ← append_eq_ofNat]
  rfl

/-- In a unit that is neither busy nor faulted the four operand registers take a write (R44). -/
theorem hostWrite_operand {s : State} (d : Word64) (latency : Nat) (hi : s.inFlight = none) (hf : s.fault = none) :
    hostWrite 0x00#8 d latency s = s.setALo d ∧ hostWrite 0x01#8 d latency s = s.setAHi d ∧
      hostWrite 0x02#8 d latency s = s.setM d ∧ hostWrite 0x03#8 d latency s = s.setV d := by
  have hidle : s.busy = false := (State.busy_eq_false_iff s).2 hi
  have hclean : s.faulted = false := (State.faulted_eq_false_iff s).2 hf
  refine ⟨?_, ?_, ?_, ?_⟩ <;> simp only [hostWrite, hidle, hclean, Bool.false_eq_true, if_false] <;> rfl

/-- A write that starts no command ends the step. -/
theorem step_of_write_idle {s u : State} {r : Byte} {d : Word64} {latency : Nat} {rest : List Input}
    (hin : s.inputs = .write r d latency :: rest) (hi : s.inFlight = none)
    (hw : hostWrite r d latency ((s.setInputs rest).setReadData none) = u) (hu : u.inFlight = none) :
    step s = .next u := by
  rw [step_of_input hin, serve, State.countAccess_of_idle (s := (s.setInputs rest).setReadData none) hi, hw,
    settle_of_idle hu]

/-- Settles O45: each write lands in its register, and the step ends with it. -/
theorem operandWritesLand : Obligations.OperandWritesLand := by
  intro s d latency rest hi hf
  obtain ⟨hlo, hhi, hm, hv⟩ := hostWrite_operand (s := (s.setInputs rest).setReadData none) d latency hi hf
  exact ⟨fun hin => step_of_write_idle hin hi (hlo.trans (setALo_eq _ _)) hi,
    fun hin => step_of_write_idle hin hi (hhi.trans (setAHi_eq _ _)) hi,
    fun hin => step_of_write_idle hin hi hm hi, fun hin => step_of_write_idle hin hi hv hi⟩

end Sys2Proof.Machine
end

section
/-! PROOFS. One host access at a time (spec/20_memory.md R43 to R46): what it does to an idle, a busy and a faulted unit,
and the step it makes. -/

namespace Sys2Proof.Machine

/-! ### The step of one access -/

/-- The state a host access meets: its input is taken off, and a command in progress has counted it (R65). -/
def State.atAccess (rest : List Input) (s : State) : State :=
  { s with
    inputs := rest, readData := none, inFlight := s.inFlight.map fun f => { f with left := f.left - 1 } }

theorem State.atAccess_of_idle {s : State} (rest : List Input) (hi : s.inFlight = none) :
    s.atAccess rest = { s with inputs := rest, readData := none } := by
  rw [State.atAccess, hi]
  rfl

theorem State.atAccess_of_busy {s : State} {i : Instr} {n : Nat} (rest : List Input)
    (hf : s.inFlight = some { cmd := i, left := n + 1 }) :
    s.atAccess rest = { s with inputs := rest, readData := none, inFlight := some { cmd := i, left := n } } := by
  rw [State.atAccess, hf]
  rfl

@[simp] theorem State.atAccess_inFlight_eq_none_iff (rest : List Input) (s : State) :
    (s.atAccess rest).inFlight = none ↔ s.inFlight = none := Option.map_eq_none_iff

@[simp] theorem State.atAccess_busy (rest : List Input) (s : State) : (s.atAccess rest).busy = s.busy :=
  Option.isSome_map

theorem State.atAccess_inFlight_of_busy {s : State} {i : Instr} {n : Nat} (rest : List Input)
    (hf : s.inFlight = some { cmd := i, left := n + 1 }) :
    (s.atAccess rest).inFlight = some { cmd := i, left := n } := by
  rw [State.atAccess_of_busy rest hf]

/-- A step that serves an access: the access, and then the completion of a command that is due (R65, R66). -/
theorem step_of_access {s : State} {x : Input} {rest : List Input} (hin : s.inputs = x :: rest)
    (hx : x.isAccess = true) : step s = settle (x.access (s.atAccess rest)) := by
  rw [step_of_input hin, serve_of_access _ hx, State.countAccess_eq]
  rfl

/-- Settles O10: no input and no command leave nothing to do, and the second host's access has no meaning. -/
theorem idleUnitKeepsItsStateAndASecondHostIsRefused : Obligations.IdleUnitKeepsItsStateAndASecondHostIsRefused :=
  ⟨fun _ hin hi => step_of_no_input_idle hin hi, fun _ _ hin => step_of_input hin⟩

/-! ### Reads (R43) -/

/-- A read of an unmapped number records BAD_ACCESS and draws the word it returns. -/
theorem hostRead_of_unmapped {r : Byte} (s : State) (h : unmapped r) :
    hostRead r s = { s with
      fault := some (s.fault.getD .badAccess), readData := some (Config.freeData s.unitNo s.draws)
      draws := s.draws + 1 } := by
  have hnone : Reg.ofNumber r = none := (Reg.ofNumber_eq_none_iff r).2 h
  rcases hostRead_cases r s with ⟨-, hread⟩ | ⟨reg, hreg, -⟩ | ⟨reg, -, hreg, -⟩
  · exact hread
  · cases hnone.symm.trans hreg
  · cases hnone.symm.trans hreg

/-- A read of a mapped number records nothing. -/
theorem hostRead_fault_of_mapped {r : Byte} (s : State) (h : ¬unmapped r) : (hostRead r s).fault = s.fault := by
  rcases hostRead_cases r s with ⟨hnone, -⟩ | ⟨_, -, hread⟩ | ⟨_, _, -, -, -, hread⟩
  · exact absurd ((Reg.ofNumber_eq_none_iff r).1 hnone) h
  · rw [hread]
  · rw [hread]

/-- With no command in progress a read of a mapped number returns the register's view. -/
theorem hostRead_of_idle {s : State} {r : Byte} {reg : Reg} (hi : s.inFlight = none)
    (hr : Reg.ofNumber r = some reg) : hostRead r s = { s with readData := some (s.view reg) } :=
  hostRead_outside hr fun f hf => by simp [hi] at hf

theorem step_of_read_idle {s : State} {r : Byte} {reg : Reg} {rest : List Input} (hi : s.inFlight = none)
    (hr : Reg.ofNumber r = some reg) (hin : s.inputs = .read r :: rest) :
    step s = .next { s with inputs := rest, readData := some (s.view reg) } := by
  have hidle : (s.atAccess rest).inFlight = none := (s.atAccess_inFlight_eq_none_iff rest).2 hi
  calc step s = settle (hostRead r (s.atAccess rest)) := step_of_access hin rfl
    _ = settle { s with inputs := rest, readData := some (s.view reg) } := by
      rw [hostRead_of_idle hidle hr, State.atAccess_of_idle rest hi]
      rfl
    _ = .next { s with inputs := rest, readData := some (s.view reg) } := settle_of_idle hi

theorem view_status (s : State) : s.view .status = BitVec.ofNat 64 s.statusWord.toNat :=
  (BitVec.ofNat_toNat 64 s.statusWord).symm

/-- Settles O42: each number names its register, and the register's view is its value, extended. -/
theorem idleReadsReturnTheRegister : Obligations.IdleReadsReturnTheRegister := by
  intro s rest hi
  rw [← view_aLo, ← view_aHi, ← view_q, ← view_len, ← view_dp, ← view_status]
  refine ⟨step_of_read_idle hi rfl, step_of_read_idle hi rfl, step_of_read_idle (reg := .m) hi rfl,
    step_of_read_idle (reg := .v) hi rfl, step_of_read_idle hi rfl, step_of_read_idle hi rfl, step_of_read_idle hi rfl,
    step_of_read_idle hi rfl, step_of_read_idle (reg := .cmd) hi rfl, fun i hlt hin => ?_⟩
  rw [step_of_read_idle hi (Reg.ofNumber_buf hlt) hin, view_buf]

/-! ### Writes that only record (R44, R45) -/

/-- The number is one of a read-only register or unmapped (R40). -/
abbrev notWritable (r : Byte) : Prop := (0x04 ≤ r.toNat ∧ r.toNat ≤ 0x07) ∨ 0x09 ≤ r.toNat

/-- The writable registers are the four operands and CMD (R40). -/
theorem writable_or_not (r : Byte) :
    r = 0x00#8 ∨ r = 0x01#8 ∨ r = 0x02#8 ∨ r = 0x03#8 ∨ r = cmdNumber ∨ notWritable r := by
  revert r
  decide

/-- A write elsewhere, in a unit that is neither busy nor faulted, records BAD_ACCESS and nothing else. -/
theorem hostWrite_of_notWritable {s : State} {r : Byte} (d : Word64) (latency : Nat) (hi : s.inFlight = none)
    (hf : s.fault = none) (h : notWritable r) : hostWrite r d latency s = { s with fault := some .badAccess } := by
  have hne : ∀ w : Byte, ¬notWritable w → r ≠ w := fun w hw hrw => hw (hrw ▸ h)
  rcases hostWrite_cases r d latency hi hf with ⟨hr, -⟩ | ⟨hr, -⟩ | ⟨hr, -⟩ | ⟨hr, -⟩ | ⟨hr, -⟩ | ⟨hr, -⟩ | ⟨-, hw⟩
  case inr.inr.inr.inr.inr.inr =>
    rw [hw, State.raiseFault_eq, hf]
    rfl
  all_goals exact absurd hr (hne _ (by decide))

/-- Settles O44: unmapped reads, writes that no register takes, and the read of CMD, which is mapped. -/
theorem badAccessesOnlyRecord : Obligations.BadAccessesOnlyRecord :=
  ⟨fun s _ hr => ⟨_, _, hostRead_of_unmapped s hr⟩,
    fun _ _ d latency hi hf hr => hostWrite_of_notWritable d latency hi hf hr,
    fun _ => hostRead_outside (reg := .cmd) rfl fun _ _ => rfl, rfl⟩

/-! ### Writes to CMD (R64) -/

/-- The data of a write to CMD is no command: a bit above bit 31 is set, or the word does not decode (R62, R64). -/
def illegalData (d : Word64) : Prop := d.toNat / 2 ^ 32 ≠ 0 ∨ ∃ e, decode (d.extractLsb' 0 32) = .error e

theorem extractLsb'_high_eq_zero_iff (d : Word64) : d.extractLsb' 32 32 = 0#32 ↔ d.toNat / 2 ^ 32 = 0 := by
  have hd := d.isLt
  rw [← BitVec.toNat_inj, BitVec.extractLsb'_toNat, Nat.shiftRight_eq_div_pow, Nat.mod_eq_of_lt (by omega)]
  rfl

theorem legal_or_illegalData (d : Word64) :
    (d.extractLsb' 32 32 = 0#32 ∧ ∃ i, decode (d.extractLsb' 0 32) = .ok i) ∨ illegalData d := by
  by_cases hhigh : d.toNat / 2 ^ 32 = 0
  · cases hdec : decode (d.extractLsb' 0 32) with
    | ok i => exact .inl ⟨(extractLsb'_high_eq_zero_iff d).2 hhigh, i, rfl⟩
    | error e => exact .inr (.inr ⟨e, hdec⟩)
  · exact .inr (.inl hhigh)

theorem hostWrite_cmd {s : State} (d : Word64) (latency : Nat) (hi : s.inFlight = none) (hf : s.fault = none) :
    hostWrite cmdNumber d latency s =
      if d.extractLsb' 32 32 = 0#32 then commandWrite (d.extractLsb' 0 32) latency s else s.raiseFault .illegalCmd := by
  have hidle : s.busy = false := (State.busy_eq_false_iff s).2 hi
  have hclean : s.faulted = false := (State.faulted_eq_false_iff s).2 hf
  simp only [hostWrite, hidle, hclean, Bool.false_eq_true, if_false]
  rfl

theorem hostWrite_cmd_of_legal {s : State} {d : Word64} {i : Instr} (latency : Nat) (hi : s.inFlight = none)
    (hf : s.fault = none) (hhigh : d.extractLsb' 32 32 = 0#32) (hdec : decode (d.extractLsb' 0 32) = .ok i) :
    hostWrite cmdNumber d latency s = { s with inFlight := some { cmd := i, left := latency } } := by
  rw [hostWrite_cmd d latency hi hf, if_pos hhigh, commandWrite, hdec]
  rfl

theorem hostWrite_cmd_of_illegal {s : State} {d : Word64} (latency : Nat) (hi : s.inFlight = none)
    (hf : s.fault = none) (h : illegalData d) :
    hostWrite cmdNumber d latency s = { s with fault := some .illegalCmd } := by
  have hraise : hostWrite cmdNumber d latency s = s.raiseFault .illegalCmd := by
    rw [hostWrite_cmd d latency hi hf]
    rcases h with hhigh | ⟨e, hdec⟩
    · rw [if_neg (mt (extractLsb'_high_eq_zero_iff d).1 hhigh)]
    · rw [commandWrite, hdec]
      exact ite_self _
  rw [hraise, State.raiseFault_eq, hf]
  rfl

/-- Settles O7: the accepted command is due at once or after its latency. -/
theorem stepRunsTheDecodedCommand : Obligations.StepRunsTheDecodedCommand := by
  intro s d latency rest i hin hi hf hhigh hdec
  have hidle : (s.atAccess rest).inFlight = none := (s.atAccess_inFlight_eq_none_iff rest).2 hi
  have hstep : step s = settle { s with
      inputs := rest, readData := none, inFlight := some { cmd := i, left := latency } } :=
    (step_of_access hin rfl).trans (congrArg settle (hostWrite_cmd_of_legal latency hidle hf hhigh hdec))
  constructor
  · rintro rfl
    rw [hstep, settle_of_due rfl]
  · intro hlatency
    obtain ⟨n, rfl⟩ := Nat.exists_eq_succ_of_ne_zero hlatency
    rw [hstep, settle_of_pending rfl]

/-- Settles O9: nothing was started, so the step ends with the record. -/
theorem illegalWordStartsNothing : Obligations.IllegalWordStartsNothing := by
  intro s d latency rest hin hi hf h
  exact step_of_write_idle hin hi (hostWrite_cmd_of_illegal latency hi hf h) hi

/-! ### Dropped writes (R44, R146) -/

/-- A write that finds the unit busy records BUSY_VIOLATION and counts as an access. -/
theorem step_of_write_busy {s : State} {r : Byte} {d : Word64} {latency : Nat} {rest : List Input} {i : Instr}
    {n : Nat} (hf : s.inFlight = some { cmd := i, left := n + 1 }) (hin : s.inputs = .write r d latency :: rest) :
    step s = settle { s with
      inputs := rest, readData := none, fault := some (s.fault.getD .busyViolation),
      inFlight := some { cmd := i, left := n } } := by
  rw [step_of_access hin rfl, Input.access, State.atAccess_of_busy rest hf, hostWrite_of_busy r d latency rfl,
    State.raiseFault_eq]

/-- Settles O47: busy, the command stays pending; faulted, the write does nothing at all. -/
theorem droppedWrites : Obligations.DroppedWrites := by
  constructor
  · intro s i n r d latency rest hf hin
    rw [step_of_write_busy hf hin, settle_of_pending rfl]
  · intro s r d latency rest hi hf hin
    obtain ⟨c, hc⟩ := Option.ne_none_iff_exists'.1 hf
    exact step_of_write_idle hin hi (hostWrite_of_faulted r d latency hi hc) hi

end Sys2Proof.Machine
end

section
/-! PROOFS. The lifecycle of a command as the host sees it (spec/30_encoding.md R65, R66, R68): what an access leaves
standing in a busy or a faulted unit, how the command completes, and which event raises which fault
(spec/60_exceptions.md R142, R144). -/

namespace Sys2Proof.Machine

/-! ### The registers through an access -/

theorem State.sameRegisters.trans {s t u : State} (h : s.sameRegisters t) (k : t.sameRegisters u) :
    s.sameRegisters u := by
  obtain ⟨ha, hm, hv, hq, hlen, hdp, hbuf, hz, hbit, hok⟩ := h
  obtain ⟨ka, km, kv, kq, klen, kdp, kbuf, kz, kbit, kok⟩ := k
  exact ⟨ka.trans ha, km.trans hm, kv.trans hv, kq.trans hq, klen.trans hlen, kdp.trans hdp, kbuf.trans hbuf,
    kz.trans hz, kbit.trans hbit, kok.trans hok⟩

/-- The model's own fields, the fault record and the command in progress are no registers. -/
theorem State.sameRegisters_update (s : State) (fault : Option Cause) (f : Option InFlight) (inputs : List Input)
    (readData : Option Word64) (draws : Nat) :
    s.sameRegisters { s with
      fault := fault, inFlight := f, inputs := inputs, readData := readData, draws := draws } :=
  ⟨rfl, rfl, rfl, rfl, rfl, rfl, rfl, rfl, rfl, rfl⟩

theorem State.atAccess_sameRegisters (rest : List Input) (s : State) : s.sameRegisters (s.atAccess rest) :=
  s.sameRegisters_update ..

theorem State.raiseFault_sameRegisters (c : Cause) (s : State) : s.sameRegisters (s.raiseFault c) := by
  rw [State.raiseFault_eq]
  exact s.sameRegisters_update ..

theorem hostRead_sameRegisters (r : Byte) (s : State) : s.sameRegisters (hostRead r s) := by
  rcases hostRead_cases r s with ⟨-, h⟩ | ⟨_, -, h⟩ | ⟨_, _, -, -, -, h⟩ <;> rw [h] <;> exact s.sameRegisters_update ..

/-- The read of a WAIT is a read of STATUS but for the inputs to come. -/
theorem waitRead_eq (s : State) : ∃ l, waitRead s = (hostRead statusNumber s).setInputs l := by
  rcases waitRead_cases s with ⟨-, h⟩ | ⟨-, h⟩
  · exact ⟨_, h⟩
  · exact ⟨_, h⟩

theorem waitRead_sameRegisters (s : State) : s.sameRegisters (waitRead s) := by
  obtain ⟨l, h⟩ := waitRead_eq s
  rw [h]
  exact hostRead_sameRegisters statusNumber s

@[simp] theorem waitRead_inFlight (s : State) : (waitRead s).inFlight = s.inFlight := by
  obtain ⟨l, h⟩ := waitRead_eq s
  rw [h]
  exact hostRead_inFlight statusNumber s

/-- STATUS is mapped, so a WAIT records nothing. -/
@[simp] theorem waitRead_fault (s : State) : (waitRead s).fault = s.fault := by
  obtain ⟨l, h⟩ := waitRead_eq s
  rw [h]
  exact hostRead_fault_of_mapped s (by unfold unmapped; decide)

/-- Only a unit that is neither busy nor faulted takes a write, so elsewhere no access changes a register or starts a
command (R44, R146). -/
theorem access_of_busy_or_faulted {s : State} (x : Input) (h : s.inFlight ≠ none ∨ s.fault ≠ none) :
    s.sameRegisters (x.access s) ∧ (x.access s).inFlight = s.inFlight := by
  cases x with
  | read r => exact ⟨hostRead_sameRegisters r s, hostRead_inFlight r s⟩
  | wait => exact ⟨waitRead_sameRegisters s, waitRead_inFlight s⟩
  | reset | secondHost => exact ⟨s.sameRegisters_update .., rfl⟩
  | write r d latency =>
    rw [Input.access]
    cases hf : s.inFlight with
    | some f =>
      rw [hostWrite_of_busy r d latency hf]
      exact ⟨s.raiseFault_sameRegisters _, by simp [hf]⟩
    | none =>
      obtain ⟨c, hc⟩ := Option.ne_none_iff_exists'.1 (h.resolve_left (not_not.2 hf))
      rw [hostWrite_of_faulted r d latency hf hc]
      exact ⟨s.sameRegisters_update .., hf⟩

/-- Settles O54: the access keeps the registers, and the command stays pending. -/
theorem busyUnitHoldsItsRegisters : Obligations.BusyUnitHoldsItsRegisters := by
  intro s i n x rest hf hin hx
  have hpending := State.atAccess_inFlight_of_busy rest hf
  obtain ⟨hregs, hflight⟩ := access_of_busy_or_faulted x (.inl (Option.ne_none_iff_exists'.2 ⟨_, hpending⟩))
  rw [hpending] at hflight
  exact ⟨_, (step_of_access hin hx).trans (settle_of_pending hflight), hflight,
    (s.atAccess_sameRegisters rest).trans hregs⟩

/-- Settles O51: an access leaves the unit idle, so there is nothing to complete. -/
theorem faultedUnitIsFrozen : Obligations.FaultedUnitIsFrozen := by
  intro s t hf hi hreset hstep
  rcases step_cases hstep with ⟨rest, hin, -⟩ | ⟨x, rest, hin, hx, -⟩ | ⟨-, -, rfl⟩ | ⟨f, -, hbusy, -⟩
  · exact absurd hin (hreset rest)
  · obtain ⟨hregs, hflight⟩ := access_of_busy_or_faulted (s := s.atAccess rest) x (.inr hf)
    rw [(s.atAccess_inFlight_eq_none_iff rest).2 hi] at hflight
    rw [step_of_access hin hx, settle_of_idle hflight] at hstep
    cases hstep
    exact ⟨hflight, (s.atAccess_sameRegisters rest).trans hregs⟩
  · exact ⟨hi, s.sameRegisters_update ..⟩
  · cases hi.symm.trans hbusy

/-! ### Completion and WAIT -/

theorem State.readBusy_eq_true_iff (s : State) :
    s.readBusy = true ↔ ∃ d, s.readData = some d ∧ d.getLsbD 0 = true := by
  cases h : s.readData <;> simp [State.readBusy, h]

/-- A WAIT that finds the unit busy reads BUSY = 1, counts as an access and goes on (R68). -/
theorem step_of_wait_busy {s : State} {rest : List Input} {i : Instr} {n : Nat}
    (hf : s.inFlight = some { cmd := i, left := n + 1 }) (hin : s.inputs = .wait :: rest) :
    ∃ u d, step s = settle u ∧ s.sameRegisters u ∧ u.fault = s.fault ∧ u.inFlight = some { cmd := i, left := n } ∧
      u.inputs = .wait :: rest ∧ u.readData = some d ∧ d.getLsbD 0 = true := by
  have hpending := State.atAccess_inFlight_of_busy rest hf
  obtain ⟨d, hd, hd0⟩ := (State.readBusy_eq_true_iff _).1 (hostRead_status_readBusy_of_busy hpending)
  refine ⟨waitRead (s.atAccess rest), d, step_of_access hin rfl,
    (s.atAccess_sameRegisters rest).trans (waitRead_sameRegisters _), waitRead_fault _,
    (waitRead_inFlight _).trans hpending, ?_, ?_, hd0⟩
  · rw [waitRead_of_busy hpending]
    rfl
  · rw [waitRead_of_busy hpending]
    exact hd

/-- Settles O8: whatever the last busy access is, it leaves the command due. -/
theorem stepCompletesTheCommandInProgress : Obligations.StepCompletesTheCommandInProgress := by
  intro s i hf
  refine ⟨fun r d latency rest hin => ?write, fun r rest hin => ?read, fun rest hin => ?wait,
    fun hin => step_of_no_input_busy hin hf⟩
  case write => rw [step_of_write_busy hf hin, settle_of_due rfl]
  case read =>
    have hdue := (hostRead_inFlight r _).trans (State.atAccess_inFlight_of_busy rest hf)
    refine ⟨hostRead r (s.atAccess rest), (step_of_access hin rfl).trans (settle_of_due hdue),
      (s.atAccess_sameRegisters rest).trans (hostRead_sameRegisters r _), hostRead_inputs r _,
      hostRead_readData_isSome r _, fun hr => hostRead_fault_of_mapped _ hr, fun hr => ?_⟩
    rw [hostRead_of_unmapped _ hr]
    rfl
  case wait =>
    obtain ⟨u, d, hstep, hregs, hfault, hdue, hinputs, hd, hd0⟩ := step_of_wait_busy hf hin
    exact ⟨u, hstep.trans (settle_of_due hdue), hregs, hinputs, hfault, d, hd, hd0⟩

/-- In an idle unit the read of a WAIT has BUSY = 0, so the WAIT does not go on (R68). -/
theorem waitRead_of_idle {s : State} (hi : s.inFlight = none) :
    waitRead s = { s with readData := some (s.view .status) } := by
  have hread : hostRead statusNumber s = { s with readData := some (s.view .status) } := hostRead_of_idle hi rfl
  rcases waitRead_cases s with ⟨hbusy, -⟩ | ⟨-, h⟩
  · rw [hread] at hbusy
    exact absurd ((State.view_status_bit_zero s).symm.trans hbusy) (by simp [hi])
  · exact h.trans hread

theorem step_of_wait_idle {s : State} {rest : List Input} (hi : s.inFlight = none) (hin : s.inputs = .wait :: rest) :
    ∃ d, step s = .next { s with inputs := rest, readData := some d } ∧ d.getLsbD 0 = false := by
  have hidle : (s.atAccess rest).inFlight = none := (s.atAccess_inFlight_eq_none_iff rest).2 hi
  refine ⟨(s.atAccess rest).view .status, ?_,
    (State.view_status_bit_zero _).trans ((State.busy_eq_false_iff _).2 hidle)⟩
  calc step s = settle (waitRead (s.atAccess rest)) := step_of_access hin rfl
    _ = settle { s with inputs := rest, readData := some ((s.atAccess rest).view .status) } := by
      rw [waitRead_of_idle hidle, State.atAccess_of_idle rest hi]
    _ = .next { s with inputs := rest, readData := some ((s.atAccess rest).view .status) } := settle_of_idle hi

/-- The model's run takes one step and goes on. -/
theorem run_succ_of_step {s t : State} (k : Nat) (h : step s = .next t) :
    Host.Core.run Sys2Proof.core (k + 1) s = Host.Core.run Sys2Proof.core k t := by
  have hcore : Sys2Proof.core.step s = .next t := h
  simp only [Host.Core.run, hcore]

/-- A WAIT waits out the accesses that find the unit busy, meets the completion, and ends with one more read. -/
theorem run_wait_of_busy (n : Nat) {s : State} {i : Instr} {rest : List Input}
    (hf : s.inFlight = some { cmd := i, left := n + 1 }) (hin : s.inputs = .wait :: rest) :
    ∃ u t d, s.sameRegisters u ∧ u.fault = s.fault ∧ exec i u = .next t ∧
      Host.Core.run Sys2Proof.core (n + 2) s = .next { t with inputs := rest, readData := some d } ∧
      t.inFlight = none ∧ d.getLsbD 0 = false := by
  induction n generalizing s with
  | zero =>
    obtain ⟨u, -, hstep, hregs, hfault, hdue, hinputs, -⟩ := step_of_wait_busy hf hin
    obtain ⟨t, ht⟩ := exec_answers_next i u
    obtain ⟨hidle, hkept, -⟩ := exec_next_facts ht
    obtain ⟨d, hlast, hd⟩ := step_of_wait_idle hidle (hkept.trans hinputs)
    refine ⟨u, t, d, hregs, hfault, ht, ?_, hidle, hd⟩
    rw [run_succ_of_step 1 ((hstep.trans (settle_of_due hdue)).trans ht), run_succ_of_step 0 hlast]
    rfl
  | succ n ih =>
    obtain ⟨u, -, hstep, hregs, hfault, hpending, hinputs, -⟩ := step_of_wait_busy hf hin
    obtain ⟨u', t, d, hregs', hfault', ht, hrun, hidle, hd⟩ := ih hpending hinputs
    refine ⟨u', t, d, hregs.trans hregs', hfault'.trans hfault, ht, ?_, hidle, hd⟩
    rw [run_succ_of_step _ (hstep.trans (settle_of_pending hpending)), hrun]

/-- Settles O56: the run of a WAIT in a busy unit, and the one step of a WAIT in an idle one. -/
theorem waitEndsAfterTheCommand : Obligations.WaitEndsAfterTheCommand :=
  ⟨fun n _ _ _ hf hin => run_wait_of_busy n hf hin, fun _ _ hi hin => step_of_wait_idle hi hin⟩

end Sys2Proof.Machine
end

section
/-! PROOFS. The origin of a first fault (spec/60_exceptions.md R142, R144): the access or the completing command that
raises it. -/

namespace Sys2Proof.Machine

/-! ### Faults of host accesses -/

/-- The access, to a unit of the given BUSY, raises the cause (R44, R45, R64). -/
def AccessRaises (x : Input) (busy : Bool) : Cause → Prop
  | .busyViolation => busy = true ∧ ∃ r d latency, x = .write r d latency
  | .illegalCmd => busy = false ∧ ∃ d latency, x = .write cmdNumber d latency ∧ illegalData d
  | .badAccess => (∃ r, x = .read r ∧ unmapped r) ∨ ∃ r d latency, x = .write r d latency ∧ notWritable r
  | _ => False

theorem AccessRaises.cause {x : Input} {busy : Bool} {c : Cause} (h : AccessRaises x busy c) :
    c = .busyViolation ∨ c = .illegalCmd ∨ c = .badAccess := by
  cases c with
  | busyViolation => exact .inl rfl
  | illegalCmd => exact .inr (.inl rfl)
  | badAccess => exact .inr (.inr rfl)
  | mulOvf | shiftRange | divQovf | divRange | bitRange | dtoaInput | dtoaInternal => exact h.elim

theorem hostWrite_first_fault {s : State} {r : Byte} {d : Word64} {latency : Nat} {c : Cause} (hf : s.fault = none)
    (hc : (hostWrite r d latency s).fault = some c) :
    AccessRaises (.write r d latency) s.busy c ∧ (hostWrite r d latency s).inFlight = s.inFlight := by
  cases hi : s.inFlight with
  | some f =>
    rw [hostWrite_of_busy r d latency hi] at hc ⊢
    obtain rfl : Cause.busyViolation = c := by simpa [hf] using hc
    exact ⟨⟨by simp [hi], r, d, latency, rfl⟩, by simp [hi]⟩
  | none =>
    have hidle : s.busy = false := (State.busy_eq_false_iff s).2 hi
    have hraised : ∀ {t : State}, hostWrite r d latency s = t → t.fault ≠ none := fun hw ht => by
      rw [hw, ht] at hc
      cases hc
    obtain ⟨hlo, hhi, hm, hv⟩ := hostWrite_operand d latency hi hf
    rcases writable_or_not r with rfl | rfl | rfl | rfl | rfl | hr
    · exact (hraised hlo hf).elim
    · exact (hraised hhi hf).elim
    · exact (hraised hm hf).elim
    · exact (hraised hv hf).elim
    · rcases legal_or_illegalData d with ⟨hhigh, i, hdec⟩ | hd
      · exact (hraised (hostWrite_cmd_of_legal latency hi hf hhigh hdec) hf).elim
      · rw [hostWrite_cmd_of_illegal latency hi hf hd] at hc ⊢
        cases hc
        exact ⟨⟨hidle, d, latency, rfl, hd⟩, hi⟩
    · rw [hostWrite_of_notWritable d latency hi hf hr] at hc ⊢
      cases hc
      exact ⟨.inr ⟨r, d, latency, rfl, hr⟩, hi⟩

/-- An access that records the first fault raises it, and starts no command. -/
theorem access_first_fault {s : State} {x : Input} {c : Cause} (hf : s.fault = none)
    (hc : (x.access s).fault = some c) : AccessRaises x s.busy c ∧ (x.access s).inFlight = s.inFlight := by
  cases x with
  | read r =>
    by_cases hr : unmapped r
    · rw [Input.access, hostRead_of_unmapped s hr] at hc ⊢
      obtain rfl : Cause.badAccess = c := by simpa [hf] using hc
      exact ⟨.inl ⟨r, rfl, hr⟩, rfl⟩
    · rw [Input.access, hostRead_fault_of_mapped s hr, hf] at hc
      cases hc
  | write r d latency => exact hostWrite_first_fault hf hc
  | wait =>
    rw [Input.access, waitRead_fault, hf] at hc
    cases hc
  | reset | secondHost => cases hf.symm.trans hc

/-! ### Faults of commands -/

/-- The command raises the cause at its completion (R142). No command raises DTOA_INTERNAL (R114). -/
def CommandRaises (i : Instr) (s : State) : Cause → Prop
  | .mulOvf => i = .mul ∧ 2 ^ 128 ≤ s.a.toNat * s.m.toNat
  | .shiftRange => ∃ k, i = .shf k ∧ (k < -64 ∨ 64 < k)
  | .divQovf => ∃ p, i = .divp2 p ∧ p ≤ 127 ∧ 2 ^ 32 ≤ s.a.toNat / 2 ^ p
  | .divRange => ∃ p, i = .divp2 p ∧ 127 < p
  | .bitRange => ∃ pos, i = .bitat pos ∧ 127 < pos
  | .dtoaInput => ∃ fc, i = .dtoa fc ∧ ¬passesInputCheck s.v
  | _ => False

theorem CommandRaises.of_sameRegisters {i : Instr} {s u : State} {c : Cause} (hregs : s.sameRegisters u)
    (h : CommandRaises i u c) : CommandRaises i s c := by
  obtain ⟨ha, hm, hv, -⟩ := hregs
  unfold CommandRaises at h ⊢
  rwa [ha, hm, hv] at h

theorem not_passesInputCheck_of_inputFault {v : Word64} {fc : Nat} (h : dtoa v fc = .inputFault) :
    ¬passesInputCheck v := by
  intro hpasses
  by_cases hgate : 20 < (decompose v).2 ∨ 20 < fc
  · cases (dtoa_of_gate_closed hpasses hgate).symm.trans h
  · obtain ⟨w, hw, -⟩ := dtoa_of_accepts (v := v) (fc := fc) ⟨hpasses, by omega, by omega⟩
    cases hw.symm.trans h

/-- A command that records the first fault raises it. -/
theorem exec_first_fault {i : Instr} {s t : State} {c : Cause} (h : exec i s = .next t) (hf : s.fault = none)
    (hc : t.fault = some c) : CommandRaises i s c := by
  have hkept : ∀ {u : State}, u.fault = s.fault → u.fault ≠ some c := fun hu => by simp [hu, hf]
  have hraised : ∀ {u : State} {b : Cause}, u.fault = s.fault → (u.raiseFault b).fault = some c → c = b := by
    intro u b hu hb
    simpa [hu, hf, eq_comm] using hb
  cases i with
  | nop | isz => cases h; exact absurd hc (hkept rfl)
  | mul =>
    simp only [exec, execMul] at h
    split at h <;> cases h
    · rename_i hovf
      obtain rfl := hraised (u := s.unspecify _) rfl hc
      exact ⟨rfl, of_decide_eq_true hovf⟩
    · exact absurd hc (hkept rfl)
  | shf k =>
    simp only [exec, execShf] at h
    split at h <;> cases h
    · exact absurd hc (hkept rfl)
    · rename_i hrange
      obtain rfl := hraised rfl hc
      rw [shiftLegal_iff] at hrange
      exact ⟨k, rfl, by omega⟩
  | divp2 p =>
    simp only [exec, execDivp2] at h
    split at h
    · rename_i hrange
      split at h <;> cases h
      · rename_i hovf
        obtain rfl := hraised (u := s.unspecify _) rfl hc
        exact ⟨p, rfl, (powerLegal_iff p).1 hrange, of_decide_eq_true hovf⟩
      · exact absurd hc (hkept rfl)
    · rename_i hrange
      cases h
      obtain rfl := hraised rfl hc
      exact ⟨p, rfl, not_le.1 (mt (powerLegal_iff p).2 hrange)⟩
  | bitat pos =>
    simp only [exec, execBitat] at h
    split at h <;> cases h
    · exact absurd hc (hkept rfl)
    · rename_i hrange
      obtain rfl := hraised rfl hc
      exact ⟨pos, rfl, not_le.1 (mt (posLegal_iff pos).2 hrange)⟩
  | dtoa fc =>
    rcases dtoa_cases s.v fc with hd | hd | ⟨_, w, hd, -, -⟩ <;> simp only [exec, execDtoa, hd] at h <;> cases h
    · obtain rfl := hraised rfl hc
      exact ⟨fc, rfl, not_passesInputCheck_of_inputFault hd⟩
    · exact absurd hc (hkept rfl)
    · exact absurd hc (hkept rfl)

/-! ### The origin of a step's first fault -/

/-- An idle unit starts a command only by a write to CMD of a word that decodes to it. -/
theorem access_starts {s : State} {x : Input} {f : InFlight} (hi : s.inFlight = none)
    (h : (x.access s).inFlight = some f) :
    s.sameRegisters (x.access s) ∧
      ∃ d, x = .write cmdNumber d f.left ∧ decode (d.extractLsb' 0 32) = .ok f.cmd := by
  have hclosed : (x.access s).inFlight ≠ s.inFlight := by simp [h, hi]
  cases hf : s.fault with
  | some c => exact absurd (access_of_busy_or_faulted x (.inr (by simp [hf]))).2 hclosed
  | none =>
    cases x with
    | read r => exact absurd (hostRead_inFlight r s) hclosed
    | wait => exact absurd (waitRead_inFlight s) hclosed
    | reset | secondHost => exact absurd rfl hclosed
    | write r d latency =>
      rw [Input.access] at h hclosed ⊢
      rcases hostWrite_cases r d latency hi hf with ⟨-, hw⟩ | ⟨-, hw⟩ | ⟨-, hw⟩ | ⟨-, hw⟩ | ⟨rfl, i, hdec, -, hw⟩ |
        ⟨-, hw⟩ | ⟨-, hw⟩ <;> rw [hw] at h hclosed ⊢
      case inr.inr.inr.inr.inl =>
        cases h
        exact ⟨s.sameRegisters_update .., d, rfl, hdec⟩
      all_goals exact absurd (by simp) hclosed

/-- A command that an access leaves due is one whose completion the step can be. -/
theorem completing_of_access_due {s : State} {x : Input} {rest : List Input} {i : Instr}
    (hin : s.inputs = x :: rest) (hdue : (x.access (s.atAccess rest)).inFlight = some { cmd := i, left := 0 }) :
    s.completing i ∧ s.sameRegisters (x.access (s.atAccess rest)) := by
  cases hi : s.inFlight with
  | none =>
    obtain ⟨hregs, d, rfl, hdec⟩ := access_starts ((s.atAccess_inFlight_eq_none_iff rest).2 hi) hdue
    exact ⟨.inr ⟨hi, d, rest, hin, hdec⟩, (s.atAccess_sameRegisters rest).trans hregs⟩
  | some f =>
    have hbusy : (s.atAccess rest).inFlight ≠ none := by simp [hi]
    obtain ⟨hregs, hflight⟩ := access_of_busy_or_faulted x (.inl hbusy)
    have hcmd : f.cmd = i := by
      rw [hflight, State.atAccess, hi] at hdue
      exact congrArg InFlight.cmd (Option.some.inj hdue)
    exact ⟨.inl ⟨f.left, hi.trans (hcmd ▸ rfl)⟩, (s.atAccess_sameRegisters rest).trans hregs⟩

/-- A first fault is raised by the access of the step or by the command the step completes. -/
theorem step_first_fault {s t : State} {c : Cause} (hf : s.fault = none) (hstep : step s = .next t)
    (hc : t.fault = some c) :
    (∃ x rest, s.inputs = x :: rest ∧ AccessRaises x s.busy c ∧ (s.inFlight = none → t.inFlight = none)) ∨
      (t.inFlight = none ∧ ∃ i, s.completing i ∧ CommandRaises i s c) := by
  rcases step_cases hstep with ⟨rest, -, rfl⟩ | ⟨x, rest, hin, hx, -⟩ | ⟨-, -, rfl⟩ | ⟨f, -, hflight, hexec⟩
  case inl => simp at hc
  case inr.inr.inl => cases hf.symm.trans hc
  case inr.inr.inr =>
    exact .inr ⟨(exec_next_facts hexec).1, f.cmd, .inl ⟨f.left, hflight⟩,
      (exec_first_fault hexec hf hc).of_sameRegisters (s.sameRegisters_update ..)⟩
  case inr.inl =>
    rw [step_of_access hin hx] at hstep
    cases hu : (x.access (s.atAccess rest)).fault with
    | some b =>
      obtain ⟨hraises, hflight⟩ := access_first_fault (s := s.atAccess rest) hf hu
      obtain rfl : b = c := Option.some.inj ((settle_fault_of_faulted hstep hu).symm.trans hc)
      refine .inl ⟨x, rest, hin, s.atAccess_busy rest ▸ hraises, fun hi => ?_⟩
      have hidle := hflight.trans ((s.atAccess_inFlight_eq_none_iff rest).2 hi)
      rw [settle_of_idle hidle] at hstep
      cases hstep
      exact hidle
    | none =>
      rcases settle_cases hstep with ⟨-, rfl⟩ | ⟨i, hdue, hexec⟩ | ⟨_, _, -, rfl⟩
      · cases hu.symm.trans hc
      · obtain ⟨hcompleting, hregs⟩ := completing_of_access_due hin hdue
        exact .inr ⟨(exec_next_facts hexec).1, i, hcompleting,
          (exec_first_fault hexec hu hc).of_sameRegisters hregs⟩
      · cases hu.symm.trans hc

/-- Settles O52, by the origin of the fault: an access, or the completion of a command. -/
theorem eachFaultHasItsOwnOrigin : Obligations.EachFaultHasItsOwnOrigin := by
  intro s t c hf hstep hc
  rcases step_first_fault hf hstep hc with ⟨x, rest, hin, hraises, hidle⟩ | ⟨hidle, i, hcompleting, hraises⟩
  · refine ⟨?busy, ?illegal, ?bad, fun hbusy hillegal hbad => ?command⟩
    case busy =>
      rintro rfl
      obtain ⟨hbusy, r, d, latency, rfl⟩ := hraises
      exact ⟨(State.busy_eq_true_iff s).1 hbusy, r, d, latency, rest, hin⟩
    case illegal =>
      rintro rfl
      obtain ⟨hfree, d, latency, rfl, hd⟩ := hraises
      exact ⟨hidle ((State.busy_eq_false_iff s).1 hfree), d, latency, rest, hin, hd⟩
    case bad =>
      rintro rfl
      obtain ⟨r, rfl, hr⟩ | ⟨r, d, latency, rfl, hr⟩ := hraises
      · exact ⟨r, rest, .inl ⟨hin, hr⟩⟩
      · exact ⟨r, rest, .inr ⟨d, latency, hin, hr⟩⟩
    case command =>
      rcases hraises.cause with h | h | h
      · exact absurd h hbusy
      · exact absurd h hillegal
      · exact absurd h hbad
  · refine ⟨?_, ?_, ?_, fun _ _ _ => ⟨hidle, i, hcompleting, ?_, ?_, ?_, ?_, ?_, ?_, ?_⟩⟩ <;> rintro rfl
    exacts [hraises.elim, hraises.elim, hraises.elim, hraises, hraises, hraises, hraises, hraises, hraises,
      hraises.elim]

end Sys2Proof.Machine
end

section
/-! PROOFS. Format CW (spec/30_encoding.md R57 to R63): decoding and encoding are inverse to each other, which words are
legal, and the mask/match table. -/

namespace Sys2Proof

/-! ### The fields of a word (R58) -/

/-- A word is its three fields. -/
theorem eq_commandWord_iff (w : Word32) (imm opc : Byte) :
    w = commandWord imm opc ↔ rsvField w = 0#16 ∧ immField w = imm ∧ opcField w = opc := by
  constructor
  · rintro rfl
    exact ⟨Laws.rsvField_commandWord _ _, Laws.immField_commandWord _ _, Laws.opcField_commandWord _ _⟩
  · rintro ⟨hrsv, rfl, rfl⟩
    have hlow : immField w ++ opcField w = w.extractLsb' 0 16 :=
      BitVec.extractLsb'_append_extractLsb'_eq_extractLsb' rfl
    have hjoin : rsvField w ++ w.extractLsb' 0 16 = w :=
      (BitVec.extractLsb'_append_extractLsb'_eq_extractLsb' rfl).trans BitVec.extractLsb'_eq_self
    rw [commandWord, BitVec.append_assoc, hlow, ← hrsv, BitVec.cast_eq, hjoin]

theorem rsvField_toNat (w : Word32) : (rsvField w).toNat = w.toNat / 2 ^ 16 := by
  have hw := w.isLt
  rw [rsvField, BitVec.extractLsb'_toNat, Nat.shiftRight_eq_div_pow, Nat.mod_eq_of_lt (by omega)]

theorem immField_toNat (w : Word32) : (immField w).toNat = w.toNat / 2 ^ 8 % 2 ^ 8 := by
  rw [immField, BitVec.extractLsb'_toNat, Nat.shiftRight_eq_div_pow]

theorem opcField_toNat (w : Word32) : (opcField w).toNat = w.toNat % 2 ^ 8 := by
  rw [opcField, BitVec.extractLsb'_toNat, Nat.shiftRight_zero]

/-- The form of `enc` in R63: OPC, and IMM8 eight bits above it. -/
theorem commandWord_eq_or (imm opc : Byte) :
    commandWord imm opc = opc.setWidth 32 ||| BitVec.ofNat 32 (imm.toNat * 2 ^ 8) := by
  have hshift : BitVec.ofNat 32 (imm.toNat * 2 ^ 8) = imm.setWidth 32 <<< 8 := by
    apply BitVec.eq_of_toNat_eq
    simp [Nat.shiftLeft_eq]
  apply BitVec.eq_of_getLsbD_eq
  intro j hj
  rw [Laws.commandWord_getLsbD, hshift]
  by_cases hlow : j < 8
  · simp [hlow, hj]
  · simp [hlow, hj, BitVec.getLsbD_of_ge opc j (by omega)]

/-! ### Decode and encode -/

/-- The word of a command has its own fields (R58, R60, R63). -/
theorem encode_fields (i : Instr) : Laws.EncodedFields.Statement i :=
  (eq_commandWord_iff _ _ _).1 rfl

/-- Only the fields of its own command decode to a command. -/
theorem decode_fields {w : Word32} {i : Instr} (h : decode w = .ok i) :
    rsvField w = 0#16 ∧ immField w = immediate i ∧ opcField w = opcode i := by
  simp only [decode, noOperand] at h
  split_ifs at h <;> cases h <;> simp_all [immediate, opcode]

/-- Settles O2: the fields select the command's row, and an operand in the encodable range is read back as it was. -/
theorem decodeOfEncodeIsTheCommand : Obligations.DecodeOfEncodeIsTheCommand := by
  intro i hwf
  obtain ⟨hrsv, himm, hopc⟩ := encode_fields i
  cases i with
  | nop | mul | isz => rfl
  | shf k =>
    have hread : (BitVec.ofInt 8 k).toInt = k := by
      simp only [Instr.wellFormed, Bool.and_eq_true, decide_eq_true_eq] at hwf
      exact BitVec.toInt_ofInt_eq_self (by decide) hwf.1 (by omega)
    simp [decode, hrsv, himm, hopc, immediate, opcode, hread]
  | divp2 n | bitat n | dtoa n =>
    have hread : (BitVec.ofNat 8 n).toNat = n := by
      simp only [Instr.wellFormed, decide_eq_true_eq] at hwf
      exact Nat.mod_eq_of_lt (by omega)
    simp only [decode, hrsv, himm, hopc, immediate, opcode, hread]
    rfl

/-- Settles O3: a legal word has RSV = 0, so its IMM8 and its OPC, which are the command's, are all of it. -/
theorem encodeOfDecodeIsTheWord : Obligations.EncodeOfDecodeIsTheWord := by
  intro w i h
  have hfields := decode_fields h
  exact ⟨Machine.decode_wellFormed h, ((eq_commandWord_iff w _ _).2 hfields).symm⟩

/-! ### The legal words (R61, R62) -/

/-- The opcodes of NOP, MUL and ISZ, whose IMM8 must be 0 (R61). -/
def hasNoOperand (opc : Byte) : Prop := opc = 0x00#8 ∨ opc = 0x01#8 ∨ opc = 0x05#8

/-- The opcodes of SHF, DIVP2, BITAT and DTOA, which decode with every IMM8 (R61). -/
def hasOperand (opc : Byte) : Prop := opc = 0x02#8 ∨ opc = 0x03#8 ∨ opc = 0x04#8 ∨ opc = 0x10#8

/-- The legal words by their fields. -/
def legalWord (w : Word32) : Prop :=
  rsvField w = 0#16 ∧ (hasOperand (opcField w) ∨ hasNoOperand (opcField w) ∧ immField w = 0x00#8)

theorem decode_ok_iff_legalWord (w : Word32) : (∃ i, decode w = .ok i) ↔ legalWord w := by
  constructor
  · rintro ⟨i, h⟩
    obtain ⟨hrsv, himm, hopc⟩ := decode_fields h
    refine ⟨hrsv, ?_⟩
    cases i with
    | nop | mul | isz => exact .inr ⟨by simp [hasNoOperand, hopc, opcode], himm⟩
    | shf | divp2 | bitat | dtoa => exact .inl (by simp [hasOperand, hopc, opcode])
  · rintro ⟨hrsv, (hopc | hopc | hopc | hopc) | ⟨hopc | hopc | hopc, himm⟩⟩
    all_goals simp [decode, noOperand, *]

theorem decode_error_iff_not_legalWord (w : Word32) : (∃ e, decode w = .error e) ↔ ¬legalWord w := by
  rw [← decode_ok_iff_legalWord]
  cases decode w <;> simp

/-- Settles O5: the fields of the legal words as numbers. -/
theorem illegalWordsAreTheReservedOnes : Obligations.IllegalWordsAreTheReservedOnes := by
  intro w
  rw [decode_error_iff_not_legalWord]
  simp only [legalWord, hasOperand, hasNoOperand, ← BitVec.toNat_inj, rsvField_toNat, immField_toNat, opcField_toNat,
    BitVec.toNat_ofNat]
  omega

/-! ### The mask/match table (R61) -/

/-- The row of an opcode whose IMM8 must be 0. -/
def rowWithoutOperand (opc : Byte) : OpcodeRow := ⟨0xFFFFFFFF#32, commandWord 0x00#8 opc⟩

/-- The row of an opcode with an operand. -/
def rowWithOperand (opc : Byte) : OpcodeRow := ⟨0xFFFF00FF#32, commandWord 0x00#8 opc⟩

theorem opcodeTable_eq : opcodeTable =
    [rowWithoutOperand 0x00#8, rowWithoutOperand 0x01#8, rowWithOperand 0x02#8, rowWithOperand 0x03#8,
      rowWithOperand 0x04#8, rowWithoutOperand 0x05#8, rowWithOperand 0x10#8] := by decide

theorem rowWithoutOperand_matches_iff (opc : Byte) (w : Word32) :
    (rowWithoutOperand opc).matches w = true ↔ rsvField w = 0#16 ∧ immField w = 0x00#8 ∧ opcField w = opc := by
  have hmask : w &&& 0xFFFFFFFF#32 = w := BitVec.and_allOnes
  rw [OpcodeRow.matches, rowWithoutOperand, beq_iff_eq, hmask, eq_commandWord_iff]

/-- The mask keeps RSV and OPC, and clears IMM8. -/
theorem rowWithOperand_matches_iff (opc : Byte) (w : Word32) :
    (rowWithOperand opc).matches w = true ↔ rsvField w = 0#16 ∧ opcField w = opc := by
  have hrsv : rsvField (w &&& 0xFFFF00FF#32) = rsvField w := BitVec.extractLsb'_and.trans BitVec.and_allOnes
  have himm : immField (w &&& 0xFFFF00FF#32) = 0x00#8 := BitVec.extractLsb'_and.trans BitVec.and_zero
  have hopc : opcField (w &&& 0xFFFF00FF#32) = opcField w := BitVec.extractLsb'_and.trans BitVec.and_allOnes
  rw [OpcodeRow.matches, rowWithOperand, beq_iff_eq, eq_commandWord_iff, hrsv, himm, hopc]
  simp

theorem mem_opcodeTable_iff (r : OpcodeRow) :
    r ∈ opcodeTable ↔
      (∃ opc, hasNoOperand opc ∧ r = rowWithoutOperand opc) ∨ ∃ opc, hasOperand opc ∧ r = rowWithOperand opc := by
  simp only [opcodeTable_eq, hasNoOperand, hasOperand, List.mem_cons, List.not_mem_nil, or_false, or_and_right,
    exists_or, exists_eq_left]
  tauto

/-- A word that fits a row is legal. -/
theorem legalWord_of_row_matches {r : OpcodeRow} {w : Word32} (hr : r ∈ opcodeTable) (h : r.matches w = true) :
    legalWord w := by
  rcases (mem_opcodeTable_iff r).1 hr with ⟨opc, hopc, rfl⟩ | ⟨opc, hopc, rfl⟩
  · obtain ⟨hrsv, himm, rfl⟩ := (rowWithoutOperand_matches_iff opc w).1 h
    exact ⟨hrsv, .inr ⟨hopc, himm⟩⟩
  · obtain ⟨hrsv, rfl⟩ := (rowWithOperand_matches_iff opc w).1 h
    exact ⟨hrsv, .inl hopc⟩

/-- Settles O4: the rows of the table differ in their OPC, and only a legal word fits one. -/
theorem legalWordsMatchExactlyOneRow : Obligations.LegalWordsMatchExactlyOneRow := by
  intro w
  constructor
  · intro i h
    obtain ⟨hrsv, himm, hopc⟩ := decode_fields h
    cases i <;>
      simp [opcodeTable_eq, rowWithoutOperand_matches_iff, rowWithOperand_matches_iff, hrsv, himm,
        hopc, immediate, opcode]
  · intro e h
    refine List.length_eq_zero_iff.2 (List.filter_eq_nil_iff.2 fun r hr hmatch => ?_)
    exact (decode_error_iff_not_legalWord w).1 ⟨e, h⟩ (legalWord_of_row_matches hr hmatch)

/-! ### The words of R63 -/

/-- Settles O1: the form of `enc` in R63, with each operand's IMM8 as a number. -/
theorem encodingFunctionGivesTheWords : Obligations.EncodingFunctionGivesTheWords := by
  have hnat : ∀ n ≤ 255, (BitVec.ofNat 8 n).toNat = n := fun n hn => Nat.mod_eq_of_lt (by omega)
  refine ⟨rfl, rfl, fun k _ _ => ?_, fun p hp => ?_, fun pos hpos => ?_, rfl, fun fc hfc => ?_,
    rfl, rfl, rfl, rfl, rfl, rfl, rfl⟩
  all_goals rw [encode, commandWord_eq_or, immediate]
  · rw [BitVec.toNat_ofInt]; rfl
  · rw [hnat p hp]; rfl
  · rw [hnat pos hpos]; rfl
  · rw [hnat fc hfc]; rfl

/-- Settles O6: each is the word of its command, which is decoded back. -/
theorem specWordsDecodeToTheirCommands : Obligations.SpecWordsDecodeToTheirCommands := by
  have hdecode := decodeOfEncodeIsTheCommand
  obtain ⟨hnop, hmul, -, -, -, hisz, -, hshf, -, -, hdivp2, hbitat, -, hdtoa⟩ := encodingFunctionGivesTheWords
  exact ⟨hnop ▸ hdecode .nop rfl, hmul ▸ hdecode .mul rfl, hshf ▸ hdecode (.shf (-64)) rfl,
    hdivp2 ▸ hdecode (.divp2 127) rfl, hbitat ▸ hdecode (.bitat 126) rfl, hisz ▸ hdecode .isz rfl,
    hdtoa ▸ hdecode (.dtoa 20) rfl⟩

end Sys2Proof
end

section
/-! PROOFS. NOP, and the latency of a command in host accesses (spec/30_encoding.md R65, R66). -/

namespace Sys2Proof.Machine

/-- Settles O11: NOP has one branch, and it only completes. -/
theorem nopChangesNothing : Obligations.NopChangesNothing := fun _ => rfl

/-! ### The accesses a busy unit meets -/

/-- The next `n` inputs are host accesses. -/
def accessesAhead (n : Nat) (l : List Input) : Prop := n ≤ l.length ∧ (l.take n).all Input.isAccess = true

/-- The first of them leaves the others ahead, whether it is taken off or, as a WAIT that goes on, stays. -/
theorem accessesAhead_succ {n : Nat} {l : List Input} (h : accessesAhead (n + 1) l) :
    ∃ x rest, l = x :: rest ∧ x.isAccess = true ∧ accessesAhead n rest ∧ accessesAhead n (x :: rest) := by
  obtain ⟨hlength, hall⟩ := h
  cases l with
  | nil => simp at hlength
  | cons x rest =>
    have hall' := hall
    rw [List.take_succ_cons, List.all_cons, Bool.and_eq_true] at hall'
    refine ⟨x, rest, rfl, hall'.1, ⟨Nat.le_of_succ_le_succ hlength, hall'.2⟩, Nat.le_of_succ_le hlength, ?_⟩
    rw [List.all_eq_true] at hall ⊢
    exact fun y hy => hall y (List.take_subset_take_left _ n.le_succ hy)

/-- Only a WAIT that goes on puts an input back (R68). -/
theorem access_inputs_of_busy {s : State} {f : InFlight} (x : Input) (h : s.inFlight = some f) :
    (x.access s).inputs = s.inputs ∨ (x.access s).inputs = x :: s.inputs := by
  cases x with
  | read r => exact .inl (hostRead_inputs r s)
  | write r d latency => exact .inl (by rw [Input.access, hostWrite_of_busy r d latency h, State.raiseFault_inputs])
  | wait => exact .inr (by rw [Input.access, waitRead_of_busy h]; rfl)
  | reset | secondHost => exact .inl rfl

/-- An access that finds the unit busy counts, keeps the registers, and leaves the accesses after it ahead (R65). -/
theorem step_of_busy_of_accessesAhead {s : State} {i : Instr} {n : Nat}
    (hf : s.inFlight = some { cmd := i, left := n + 1 }) (h : accessesAhead (n + 1) s.inputs) :
    ∃ u, step s = settle u ∧ u.inFlight = some { cmd := i, left := n } ∧ s.sameRegisters u ∧
      accessesAhead n u.inputs := by
  obtain ⟨x, rest, hin, hx, hrest, hwait⟩ := accessesAhead_succ h
  have hpending := State.atAccess_inFlight_of_busy rest hf
  obtain ⟨hregs, hflight⟩ := access_of_busy_or_faulted x (.inl (Option.ne_none_iff_exists'.2 ⟨_, hpending⟩))
  refine ⟨x.access (s.atAccess rest), step_of_access hin hx, hflight.trans hpending,
    (s.atAccess_sameRegisters rest).trans hregs, ?_⟩
  rcases access_inputs_of_busy x hpending with hinputs | hinputs <;> rw [hinputs]
  · exact hrest
  · exact hwait

/-! ### The run of the command's latency -/

/-- Each access but the last leaves the command in progress. -/
theorem run_of_pending (k : Nat) {n : Nat} {s : State} {i : Instr} (hk : k ≤ n)
    (hf : s.inFlight = some { cmd := i, left := n + 1 }) (h : accessesAhead (n + 1) s.inputs) :
    ∃ t, Host.Core.run Sys2Proof.core k s = .next t ∧ t.inFlight = some { cmd := i, left := n + 1 - k } ∧
      s.sameRegisters t := by
  induction k generalizing n s with
  | zero => exact ⟨s, rfl, hf, s.sameRegisters_update ..⟩
  | succ k ih =>
    obtain ⟨m, rfl⟩ := Nat.exists_eq_succ_of_ne_zero (Nat.ne_zero_of_lt hk)
    obtain ⟨u, hstep, hpending, hregs, hahead⟩ := step_of_busy_of_accessesAhead hf h
    obtain ⟨t, hrun, ht, hregs'⟩ := ih (Nat.le_of_succ_le_succ hk) hpending hahead
    refine ⟨t, ?_, ?_, hregs.trans hregs'⟩
    · rw [run_succ_of_step k (hstep.trans (settle_of_pending hpending)), hrun]
    · rw [ht, Nat.add_sub_add_right]

/-- The last access that finds the unit busy ends with the command's completion (R66). -/
theorem run_to_completion (n : Nat) {s : State} {i : Instr} (hf : s.inFlight = some { cmd := i, left := n + 1 })
    (h : accessesAhead (n + 1) s.inputs) :
    ∃ u t, Host.Core.run Sys2Proof.core (n + 1) s = .next t ∧ s.sameRegisters u ∧ exec i u = .next t := by
  induction n generalizing s with
  | zero =>
    obtain ⟨u, hstep, hdue, hregs, -⟩ := step_of_busy_of_accessesAhead hf h
    obtain ⟨t, ht⟩ := exec_answers_next i u
    exact ⟨u, t, run_succ_of_step 0 ((hstep.trans (settle_of_due hdue)).trans ht), hregs, ht⟩
  | succ n ih =>
    obtain ⟨u, hstep, hpending, hregs, hahead⟩ := step_of_busy_of_accessesAhead hf h
    obtain ⟨u', t, hrun, hregs', ht⟩ := ih hpending hahead
    refine ⟨u', t, ?_, hregs.trans hregs', ht⟩
    rw [run_succ_of_step _ (hstep.trans (settle_of_pending hpending)), hrun]

/-- Settles O55: the run while the command is in progress, and the run to its completion. -/
theorem commandCompletesAfterItsLatency : Obligations.CommandCompletesAfterItsLatency := by
  intro n s i hf hlength hall
  obtain ⟨u, t, hrun, hregs, ht⟩ := run_to_completion n hf ⟨hlength, hall⟩
  exact ⟨fun k hk => run_of_pending k hk hf ⟨hlength, hall⟩, u, t, hrun, hregs, ht, (exec_next_facts ht).1⟩

end Sys2Proof.Machine
end

section
/-! PROOFS. The faults of the U128 commands (spec/60_exceptions.md R145) and the construction of a U128 value by the
host (spec/40_u128.md R74). -/

namespace Sys2Proof.Machine

/-! ### Overflows (R78, R84) -/

/-- An overflowing product draws `A` and records MUL_OVF. -/
theorem exec_mul_of_overflow {s : State} (h : 2 ^ 128 ≤ s.a.toNat * s.m.toNat) :
    exec .mul s = .next { s with
      a := Config.freeA s.unitNo s.draws, fault := some (s.fault.getD .mulOvf), inFlight := none
      draws := s.draws + 1 } := by
  have hovf : (mul128 s.a s.m).2 = true := by rw [mul128_snd, decide_eq_true h]
  simp only [exec, execMul, hovf, if_true, State.raiseFault_eq]
  rfl

/-- A quotient that does not fit `Q` draws `A` and `Q` and records DIV_QOVF. -/
theorem exec_divp2_of_overflow {s : State} {p : Nat} (hp : p ≤ 127) (h : 2 ^ 32 ≤ s.a.toNat / 2 ^ p) :
    exec (.divp2 p) s = .next { s with
      a := Config.freeA s.unitNo s.draws, q := Config.freeQ s.unitNo s.draws
      fault := some (s.fault.getD .divQovf), inFlight := none, draws := s.draws + 1 } := by
  simp only [exec, execDivp2, if_pos ((powerLegal_iff p).2 hp), divmodp2_eq, decide_eq_true h, if_true,
    State.raiseFault_eq]
  rfl

/-- Settles O17: the values of `A` and `Q` are the draws. -/
theorem arithmeticOverflowsFault : Obligations.ArithmeticOverflowsFault :=
  ⟨fun _ h => ⟨_, _, exec_mul_of_overflow h⟩, fun _ _ hp h => ⟨_, _, _, exec_divp2_of_overflow hp h⟩⟩

/-! ### Operands out of range (R81, R84, R86) -/

/-- A fault that a command only records, at its completion. -/
theorem raiseFault_complete_eq (c : Cause) (s : State) :
    (s.raiseFault c).complete = { s with fault := some (s.fault.getD c), inFlight := none } := by
  rw [State.raiseFault_eq]
  rfl

/-- Settles O18: each operand is outside the range its command checks. -/
theorem rangeFaultsOnlyRecord : Obligations.RangeFaultsOnlyRecord := by
  refine ⟨fun s k h => ?shf, fun s p h => ?divp2, fun s pos h => ?bitat⟩
  case shf =>
    have hrange : ¬shiftLegal k = true := by rw [shiftLegal_iff]; omega
    rw [exec, execShf, if_neg hrange, raiseFault_complete_eq]
  case divp2 =>
    have hrange : ¬powerLegal p = true := by rw [powerLegal_iff]; omega
    rw [exec, execDivp2, if_neg hrange, raiseFault_complete_eq]
  case bitat =>
    have hrange : ¬posLegal pos = true := by rw [posLegal_iff]; omega
    rw [exec, execBitat, if_neg hrange, raiseFault_complete_eq]

/-! ### Construction (R74) -/

/-- The write of the low half keeps the high half just written. -/
theorem setALo_setAHi (hi lo : Word64) (s : State) :
    (s.setAHi hi).setALo lo = { s with a := BitVec.ofNat 128 (hi.toNat * 2 ^ 64 + lo.toNat) } := by
  have hhigh : (hi ++ s.a.extractLsb' 0 64).extractLsb' 64 64 = hi :=
    BitVec.extractLsb'_append_eq_left
  rw [← append_eq_ofNat, State.setALo, State.setAHi_a, hhigh]
  rfl

/-- The write of the high half keeps the low half just written. -/
theorem setAHi_setALo (hi lo : Word64) (s : State) :
    (s.setALo lo).setAHi hi = { s with a := BitVec.ofNat 128 (hi.toNat * 2 ^ 64 + lo.toNat) } := by
  have hlow : (s.a.extractLsb' 64 64 ++ lo).extractLsb' 0 64 = lo :=
    BitVec.extractLsb'_append_eq_right
  rw [← append_eq_ofNat, State.setAHi, State.setALo_a, hlow]
  rfl

/-- The host's two writes to a unit that is neither busy nor faulted (R44, R74). -/
theorem hostWrite_halves {s : State} (hi lo : Word64) (m n : Nat) (hidle : s.inFlight = none)
    (hclean : s.fault = none) :
    hostWrite 0x00#8 lo n (hostWrite 0x01#8 hi m s) = (s.setAHi hi).setALo lo ∧
      hostWrite 0x01#8 hi m (hostWrite 0x00#8 lo n s) = (s.setALo lo).setAHi hi := by
  have hlow {t : State} (ht : t.inFlight = none) (hf : t.fault = none) := (hostWrite_operand lo n ht hf).1
  have hhigh {t : State} (ht : t.inFlight = none) (hf : t.fault = none) := (hostWrite_operand hi m ht hf).2.1
  rw [hhigh hidle hclean, hlow hidle hclean]
  exact ⟨hlow hidle hclean, hhigh hidle hclean⟩

/-- Settles O46: the two writes land in their halves, whichever comes first. -/
theorem constructInEitherOrder : Obligations.ConstructInEitherOrder := by
  refine ⟨fun _ _ _ => rfl, fun s hi lo m n hidle hclean => ?_, ?_⟩
  · obtain ⟨hlowLast, hhighLast⟩ := hostWrite_halves hi lo m n hidle hclean
    exact ⟨hlowLast.trans (setALo_setAHi hi lo s), hhighLast.trans (setAHi_setALo hi lo s)⟩
  · rw [(hostWrite_halves 0x1#64 0x2#64 0 0 rfl rfl).1, setALo_setAHi]
    rfl

end Sys2Proof.Machine
end

section
/-! PROOFS. The laws of the U128 functions (spec/40_u128.md R89 to R94). -/

namespace Sys2Proof.Machine

/-- Settles O19: a product with 1 fits, and the zero test is the comparison with 0. -/
theorem mulByOneAndZeroTest : Obligations.MulByOneAndZeroTest := by
  refine ⟨fun a => Prod.ext (BitVec.eq_of_toNat_eq ?value) ?overflow, rfl, fun a ha => beq_false_of_ne ha⟩
  case value =>
    rw [mul128_fst, BitVec.toNat_ofNat, Nat.mul_one, Nat.mod_eq_of_lt a.isLt]
  case overflow =>
    rw [mul128_snd, BitVec.toNat_ofNat, Nat.mul_one, decide_eq_false (not_le.2 a.isLt)]

/-! ### Shifts by a natural number -/

@[simp] theorem shift128_natCast_toNat (a : U128) (n : Nat) : (shift128 a (n : Int)).toNat = a.toNat / 2 ^ n := by
  rw [shift128_toNat_of_nonneg a n.cast_nonneg, Int.toNat_natCast]

@[simp] theorem shift128_neg_natCast_toNat (a : U128) (n : Nat) :
    (shift128 a (-(n : Int))).toNat = a.toNat * 2 ^ n % 2 ^ 128 := by
  cases n with
  | zero =>
    rw [Nat.pow_zero, Nat.mul_one, Nat.mod_eq_of_lt a.isLt]
    exact (shift128_natCast_toNat a 0).trans (Nat.div_one _)
  | succ n => rw [shift128_toNat_of_neg a (by omega), Int.neg_neg, Int.toNat_natCast]

/-! ### Shift and shift back (R90) -/

/-- Right and back: the low bits are lost. -/
theorem shift128_right_left_toNat (a : U128) (n : Nat) :
    (shift128 (shift128 a (n : Int)) (-(n : Int))).toNat = a.toNat / 2 ^ n * 2 ^ n := by
  rw [shift128_neg_natCast_toNat, shift128_natCast_toNat,
    Nat.mod_eq_of_lt ((Nat.div_mul_le_self _ _).trans_lt a.isLt)]

/-- Left and back: the high bits are lost. -/
theorem shift128_left_right_toNat (a : U128) {n : Nat} (hn : n ≤ 128) :
    (shift128 (shift128 a (-(n : Int))) (n : Int)).toNat = a.toNat % 2 ^ (128 - n) := by
  rw [shift128_natCast_toNat, shift128_neg_natCast_toNat, ← Nat.pow_sub_mul_pow 2 hn, Nat.mul_mod_mul_right,
    Nat.mul_div_cancel _ (Nat.two_pow_pos n)]

theorem shift128_right_left_eq_iff (a : U128) (n : Nat) :
    shift128 (shift128 a (n : Int)) (-(n : Int)) = a ↔ a.toNat % 2 ^ n = 0 := by
  rw [← BitVec.toNat_inj, shift128_right_left_toNat, ← Nat.dvd_iff_mod_eq_zero, Nat.dvd_iff_div_mul_eq]

theorem shift128_left_right_eq_iff (a : U128) {n : Nat} (hn : n ≤ 128) :
    shift128 (shift128 a (-(n : Int))) (n : Int) = a ↔ a.toNat < 2 ^ (128 - n) := by
  rw [← BitVec.toNat_inj, shift128_left_right_toNat a hn, Nat.mod_eq_iff_lt (Nat.two_pow_pos _).ne']

/-- Settles O20: the lost bits are the low ones on the way right, and the high ones on the way left. -/
theorem shiftRoundTripHoldsWhenNoBitIsLost : Obligations.ShiftRoundTripHoldsWhenNoBitIsLost := by
  refine ⟨fun a k hpos hlt => ?_, fun a => ?_⟩
  · lift k to Nat using hpos.le
    exact ⟨shift128_right_left_eq_iff a k, shift128_left_right_eq_iff a (by omega)⟩
  · exact ⟨(shift128_right_left_eq_iff a 0).2 (Nat.mod_one _), (shift128_left_right_eq_iff a (Nat.zero_le _)).2 a.isLt⟩

/-! ### Division (R91) -/

theorem divmodp2_quotient {a : U128} {p : Nat} {q : Word32} {r : U128} {overflow : Bool}
    (h : divmodp2 a p = (q, r, overflow)) : q.toNat = a.toNat / 2 ^ p % 2 ^ 32 := by
  cases h
  exact BitVec.toNat_ofNat _ _

theorem divmodp2_remainder {a : U128} {p : Nat} {q : Word32} {r : U128} {overflow : Bool}
    (h : divmodp2 a p = (q, r, overflow)) : r.toNat = a.toNat % 2 ^ p := by
  cases h
  rw [BitVec.toNat_ofNat, Nat.mod_eq_of_lt ((Nat.mod_le _ _).trans_lt a.isLt)]

theorem divmodp2_overflow {a : U128} {p : Nat} {q : Word32} {r : U128} {overflow : Bool}
    (h : divmodp2 a p = (q, r, overflow)) : overflow = true ↔ 2 ^ 32 ≤ a.toNat / 2 ^ p := by
  cases h
  exact decide_eq_true_iff

/-- Settles O21: the truncated quotient is the full one exactly when it fits. -/
theorem divisionIdentity : Obligations.DivisionIdentity := by
  refine ⟨fun a p q r _ h => ?fits, fun s p q r hp h => ?overflows⟩
  case fits =>
    have hfits : a.toNat / 2 ^ p < 2 ^ 32 := not_le.1 (mt (divmodp2_overflow h).2 Bool.false_ne_true)
    rw [divmodp2_quotient h, divmodp2_remainder h, Nat.mod_eq_of_lt hfits]
    exact ⟨(Nat.div_add_mod' _ _).symm, Nat.mod_lt _ (Nat.two_pow_pos p)⟩
  case overflows =>
    have hovf : 2 ^ 32 ≤ s.a.toNat / 2 ^ p := (divmodp2_overflow h).1 rfl
    have hidentity : s.a.toNat = s.a.toNat / 2 ^ p * 2 ^ p + r.toNat := by
      rw [divmodp2_remainder h, Nat.div_add_mod']
    refine ⟨hidentity, fun htruncated => ?_, _, exec_divp2_of_overflow hp hovf, rfl⟩
    have hsame : s.a.toNat / 2 ^ p = q.toNat :=
      Nat.eq_of_mul_eq_mul_right (Nat.two_pow_pos p) (Nat.add_right_cancel (hidentity.symm.trans htruncated))
    exact absurd q.isLt (not_lt.2 (hsame ▸ hovf))

/-! ### Shifts, multiplication and division by powers of two (R94) -/

/-- The power of two as a multiplicand. -/
theorem toNat_twoPow_of_le {n : Nat} (hn : n ≤ 63) : (BitVec.ofNat 64 (2 ^ n)).toNat = 2 ^ n := by
  rw [BitVec.toNat_ofNat, Nat.mod_eq_of_lt (Nat.pow_lt_pow_right Nat.one_lt_two (by omega))]

/-- No bit is lost exactly when the product with the power of two stays below 2^128. -/
theorem mul_twoPow_lt_iff (x : Nat) {n : Nat} (hn : n ≤ 128) : x * 2 ^ n < 2 ^ 128 ↔ x < 2 ^ (128 - n) := by
  rw [← Nat.pow_sub_mul_pow 2 hn, Nat.mul_lt_mul_right (Nat.two_pow_pos n)]

/-- A legal shift writes `shift128` to `A`. -/
theorem exec_shf_of_legal (s : State) {k : Int} (hlow : -64 ≤ k) (hhigh : k ≤ 64) :
    exec (.shf k) s = .next { s with a := shift128 s.a k, inFlight := none } := by
  rw [shfIsTheLogicalShift s k hlow hhigh, ← shift128_eq_ofNat]

/-- Settles O22: both sides of each law are the same number. -/
theorem shiftMultiplyAndDivideAgree : Obligations.ShiftMultiplyAndDivideAgree := by
  refine ⟨fun a n hn hfits => Prod.ext (BitVec.eq_of_toNat_eq ?value) ?noOverflow,
    fun s n hn hm hlost => ⟨?mul, ?shf⟩, fun a p _ => shift128_natCast_toNat a p⟩
  case value => rw [mul128_fst, toNat_twoPow_of_le hn, shift128_neg_natCast_toNat]
  case noOverflow =>
    rw [mul128_snd, toNat_twoPow_of_le hn, decide_eq_false (not_le.2 ((mul_twoPow_lt_iff _ (by omega)).2 hfits))]
  case mul =>
    have hovf : 2 ^ 128 ≤ s.a.toNat * s.m.toNat := by
      rw [hm, toNat_twoPow_of_le hn]
      exact not_lt.1 (mt (mul_twoPow_lt_iff _ (by omega)).1 (not_lt.2 hlost))
    exact ⟨_, exec_mul_of_overflow hovf, rfl⟩
  case shf =>
    rw [exec_shf_of_legal s (by omega) (by omega), ← shift128_neg_natCast_toNat, BitVec.ofNat_toNat,
      BitVec.setWidth_eq]

end Sys2Proof.Machine
end

section
/-! PROOFS. The informative forms of the U128 functions (spec/40_u128.md R76, R80, R83): the school multiplication, the
half-wise shift and the split division. -/

namespace Sys2Proof.Machine

/-! ### The school multiplication (R76) -/

/-- The limb of 32 bits with index `i`. -/
def limb (a : U128) (i : Nat) : Nat := a.toNat / 2 ^ (32 * i) % 2 ^ 32

/-- The 64-bit accumulator after the limb with index `i`. -/
def schoolAcc (a : U128) (m : Word64) : Nat → Nat
  | 0 => limb a 0 * m.toNat % 2 ^ 64
  | i + 1 => (schoolAcc a m i / 2 ^ 32 + limb a (i + 1) * m.toNat) % 2 ^ 64

theorem schoolMul_eq (a : U128) (m : Word64) :
    schoolMul a m =
      (BitVec.ofNat 128
        ((schoolAcc a m 3 % 2 ^ 32 * 2 ^ 32 + schoolAcc a m 2 % 2 ^ 32) * 2 ^ 64 +
          (schoolAcc a m 1 % 2 ^ 32 * 2 ^ 32 + schoolAcc a m 0 % 2 ^ 32)),
      decide (schoolAcc a m 3 / 2 ^ 32 ≠ 0)) := rfl

theorem schoolAcc_lt (a : U128) (m : Word64) (i : Nat) : schoolAcc a m i < 2 ^ 64 := by
  cases i <;> exact Nat.mod_lt _ (Nat.two_pow_pos 64)

/-- A partial product of two 32-bit numbers leaves room for a 32-bit carry. -/
theorem limb_mul_le (a : U128) {m : Word64} (hm : m.toNat < 2 ^ 32) (i : Nat) :
    limb a i * m.toNat ≤ (2 ^ 32 - 1) * (2 ^ 32 - 1) :=
  Nat.mul_le_mul (Nat.le_pred_of_lt (Nat.mod_lt _ (Nat.two_pow_pos 32))) (Nat.le_pred_of_lt hm)

/-- For a multiplicand below 2^32 the accumulator never overflows. -/
theorem schoolAcc_zero {a : U128} {m : Word64} (hm : m.toNat < 2 ^ 32) : schoolAcc a m 0 = limb a 0 * m.toNat :=
  Nat.mod_eq_of_lt ((limb_mul_le a hm 0).trans_lt (by decide))

theorem schoolAcc_succ {a : U128} {m : Word64} (hm : m.toNat < 2 ^ 32) (i : Nat) :
    schoolAcc a m (i + 1) = schoolAcc a m i / 2 ^ 32 + limb a (i + 1) * m.toNat := by
  have hproduct := limb_mul_le a hm (i + 1)
  have hcarry := schoolAcc_lt a m i
  exact Nat.mod_eq_of_lt (by omega)

/-- A U128 value is the sum of its limbs. -/
theorem toNat_eq_sum_limbs (a : U128) :
    a.toNat = limb a 0 + limb a 1 * 2 ^ 32 + limb a 2 * 2 ^ 64 + limb a 3 * 2 ^ 96 := by
  have ha := a.isLt
  simp only [limb]
  omega

/-- The columns of the school multiplication write the exact product. -/
theorem mul_eq_sum_columns {a : U128} {m : Word64} (hm : m.toNat < 2 ^ 32) :
    a.toNat * m.toNat =
      schoolAcc a m 3 * 2 ^ 96 + schoolAcc a m 2 % 2 ^ 32 * 2 ^ 64 + schoolAcc a m 1 % 2 ^ 32 * 2 ^ 32 +
        schoolAcc a m 0 % 2 ^ 32 := by
  have hlimbs : a.toNat * m.toNat =
      limb a 0 * m.toNat + limb a 1 * m.toNat * 2 ^ 32 + limb a 2 * m.toNat * 2 ^ 64 +
        limb a 3 * m.toNat * 2 ^ 96 := by
    rw [toNat_eq_sum_limbs a]
    ring
  have hacc0 := schoolAcc_zero (a := a) hm
  have hacc1 : schoolAcc a m 1 = schoolAcc a m 0 / 2 ^ 32 + limb a 1 * m.toNat := schoolAcc_succ hm 0
  have hacc2 : schoolAcc a m 2 = schoolAcc a m 1 / 2 ^ 32 + limb a 2 * m.toNat := schoolAcc_succ hm 1
  have hacc3 : schoolAcc a m 3 = schoolAcc a m 2 / 2 ^ 32 + limb a 3 * m.toNat := schoolAcc_succ hm 2
  omega

/-- Settles O23: the last column's high half is what the product has above bit 127. -/
theorem schoolMultiplicationAgrees : Obligations.SchoolMultiplicationAgrees := by
  intro a m hm
  have hcolumns := mul_eq_sum_columns (a := a) hm
  rw [schoolMul_eq]
  refine Prod.ext (BitVec.eq_of_toNat_eq ?value) ?overflow
  case value =>
    rw [mul128_fst, BitVec.toNat_ofNat]
    omega
  case overflow =>
    rw [mul128_snd, decide_eq_decide]
    omega

/-! ### The half-wise shift (R80) -/

/-- A right shift by halves: the low half shifts out its low bits, and the high half comes down whole above the rest. -/
theorem div_twoPow_eq_halves (x : Nat) {n : Nat} (hn : n ≤ 64) :
    x / 2 ^ n = x % 2 ^ 64 / 2 ^ n + x / 2 ^ 64 * 2 ^ (64 - n) := by
  have hsplit : x = x % 2 ^ 64 + x / 2 ^ 64 * 2 ^ (64 - n) * 2 ^ n := by
    rw [Nat.mul_assoc, Nat.pow_sub_mul_pow 2 hn, Nat.mod_add_div']
  conv_lhs => rw [hsplit, Nat.add_mul_div_right _ _ (Nat.two_pow_pos n)]

/-- What a shift by `64 - n` to the left moves out of a half is what a shift by `n` to the right leaves. -/
theorem mul_twoPow_sub_div (x : Nat) {n : Nat} (hn : n ≤ 64) : x * 2 ^ (64 - n) / 2 ^ 64 = x / 2 ^ n := by
  rw [← Nat.pow_sub_mul_pow 2 hn, Nat.mul_comm x, Nat.mul_div_mul_left _ _ (Nat.two_pow_pos _)]

/-- The right shift with each half kept below 2^64. -/
theorem div_twoPow_eq_join (x : Nat) {n : Nat} (hn : n ≤ 64) :
    x / 2 ^ n =
      x / 2 ^ 64 / 2 ^ n * 2 ^ 64 + (x % 2 ^ 64 / 2 ^ n + x / 2 ^ 64 * 2 ^ (64 - n) % 2 ^ 64) := by
  rw [div_twoPow_eq_halves x hn, ← mul_twoPow_sub_div (x / 2 ^ 64) hn]
  omega

/-- A left shift by halves: the low half's high bits enter the high half from below. -/
theorem mul_twoPow_eq_join (x : Nat) {n : Nat} (hn : n ≤ 64) :
    x * 2 ^ n % 2 ^ 128 =
      ((x / 2 ^ 64 * 2 ^ n % 2 ^ 64 + x % 2 ^ 64 / 2 ^ (64 - n)) * 2 ^ 64 + x % 2 ^ 64 * 2 ^ n % 2 ^ 64) %
        2 ^ 128 := by
  have hsplit : x * 2 ^ n = x / 2 ^ 64 * 2 ^ n * 2 ^ 64 + x % 2 ^ 64 * 2 ^ n := by
    rw [Nat.mul_right_comm, ← Nat.add_mul, Nat.div_add_mod']
  have hcarry := mul_twoPow_sub_div (x % 2 ^ 64) (n := 64 - n) (Nat.sub_le _ _)
  rw [Nat.sub_sub_self hn] at hcarry
  rw [hsplit, ← hcarry]
  omega

/-- Two halves as one value. -/
def joinHalves (high low : Nat) : U128 := BitVec.ofNat 128 (high * 2 ^ 64 + low)

theorem hi64_lt (a : U128) : hi64 a < 2 ^ 64 := Nat.div_lt_of_lt_mul a.isLt

theorem lo64_lt (a : U128) : lo64 a < 2 ^ 64 := Nat.mod_lt _ (Nat.two_pow_pos 64)

/-- The rows of R80's table for amounts of 0 and more are one formula, which at 0 and 64 is that
of the row. -/
theorem halfwiseShift_right (a : U128) {n : Nat} (hn : n ≤ 64) :
    halfwiseShift a (n : Int) =
      joinHalves (hi64 a / 2 ^ n) (lo64 a / 2 ^ n + hi64 a * 2 ^ (64 - n) % 2 ^ 64) := by
  rcases Nat.eq_zero_or_pos n with rfl | hpos
  · simp [halfwiseShift, joinHalves]
  rcases hn.eq_or_lt with rfl | hlt
  · rw [Nat.sub_self, Nat.pow_zero, Nat.mul_one, Nat.div_eq_of_lt (hi64_lt a), Nat.div_eq_of_lt (lo64_lt a),
      Nat.mod_eq_of_lt (hi64_lt a), Nat.zero_add]
    rfl
  · rw [halfwiseShift, if_neg (by omega), if_neg (by omega), if_neg (by omega), if_pos (by omega)]
    rfl

/-- The rows of R80's table for amounts of 0 and less are one formula. -/
theorem halfwiseShift_left (a : U128) {n : Nat} (hn : n ≤ 64) :
    halfwiseShift a (-(n : Int)) =
      joinHalves (hi64 a * 2 ^ n % 2 ^ 64 + lo64 a / 2 ^ (64 - n)) (lo64 a * 2 ^ n % 2 ^ 64) := by
  rcases Nat.eq_zero_or_pos n with rfl | hpos
  · rw [Nat.sub_zero, Nat.pow_zero, Nat.mul_one, Nat.mul_one, Nat.div_eq_of_lt (lo64_lt a),
      Nat.mod_eq_of_lt (hi64_lt a), Nat.mod_eq_of_lt (lo64_lt a), Nat.add_zero]
    rfl
  rcases hn.eq_or_lt with rfl | hlt
  · simp [halfwiseShift, joinHalves]
  · rw [halfwiseShift, if_neg (by omega), if_neg (by omega), if_neg (by omega), if_neg (by omega), Int.neg_neg,
      Int.toNat_natCast]
    rfl

theorem halfwiseShift_eq (a : U128) {k : Int} (hlow : -64 ≤ k) (hhigh : k ≤ 64) :
    halfwiseShift a k = shift128 a k := by
  apply BitVec.eq_of_toNat_eq
  obtain ⟨n, rfl | rfl⟩ := k.eq_nat_or_neg
  · have hn : n ≤ 64 := by omega
    rw [halfwiseShift_right a hn, joinHalves, BitVec.toNat_ofNat, hi64, lo64, ← div_twoPow_eq_join _ hn,
      ← shift128_natCast_toNat, Nat.mod_eq_of_lt (BitVec.isLt _)]
  · have hn : n ≤ 64 := by omega
    rw [halfwiseShift_left a hn, joinHalves, BitVec.toNat_ofNat, hi64, lo64, ← mul_twoPow_eq_join _ hn,
      shift128_neg_natCast_toNat]

/-! ### The split division (R83) -/

/-- From 64 on the power takes the whole low half into the remainder; below it, the high half into the quotient. -/
theorem splitDivmod_eq (a : U128) (p : Nat) : splitDivmod a p = (a.toNat / 2 ^ p, a.toNat % 2 ^ p) := by
  rw [splitDivmod, hi64, lo64]
  split
  · rename_i hp
    have hpow : 2 ^ p = 2 ^ 64 * 2 ^ (p - 64) := by rw [← Nat.pow_add, Nat.add_sub_cancel' hp]
    rw [hpow, Nat.div_div_eq_div_mul, Nat.mod_mul, Nat.mul_comm (2 ^ 64) (_ % _), Nat.add_comm (_ % 2 ^ 64)]
  · rename_i hp
    have hle : p ≤ 64 := by omega
    rw [← div_twoPow_eq_halves _ hle, Nat.mod_mod_of_dvd _ (Nat.pow_dvd_pow 2 hle)]

/-- Settles O24: both forms split the value at bit 64 and join exact results of its halves. -/
theorem halfwiseFormsAgree : Obligations.HalfwiseFormsAgree :=
  ⟨fun a _ hlow hhigh => halfwiseShift_eq a hlow hhigh, fun a p _ => splitDivmod_eq a p⟩

end Sys2Proof.Machine
end

section
/-! PROOFS. How a DTOA ends (spec/41_fixed_dtoa.md R98, R100, R104, R114, R116, R117, R119): the input fault, the domain
rejection, and the digits and the decimal point of a result. -/

namespace Sys2Proof.Machine

/-! ### The input fault (R98) -/

theorem exec_dtoa_of_inputRejected {s : State} (fc : Nat) (h : ¬passesInputCheck s.v) :
    exec (.dtoa fc) s = .next (s.raiseFault .dtoaInput).complete := by
  simp only [exec, execDtoa, dtoa_of_inputRejected fc h]

theorem not_passesInputCheck_iff (v : Word64) :
    ¬passesInputCheck v ↔ v.getLsbD 63 = true ∨ (v.extractLsb' 52 11).toNat = 0x7FF := by
  rw [passesInputCheck, not_and_or, Bool.not_eq_false, not_not]

/-- Settles O32: the input check comes first, and the fault is all it writes. -/
theorem dtoaInputFaultChangesNothing : Obligations.DtoaInputFaultChangesNothing := by
  intro s fc hinput
  rw [exec_dtoa_of_inputRejected fc ((not_passesInputCheck_iff s.v).2 hinput), State.raiseFault_eq]
  rfl

/-! ### Domain rejection (R100) -/

theorem exec_dtoa_of_gate_closed {s : State} {fc : Nat} (h : passesInputCheck s.v)
    (hgate : 20 < (decompose s.v).2 ∨ 20 < fc) : exec (.dtoa fc) s = .next (s.setOk false).complete := by
  simp only [exec, execDtoa, dtoa_of_gate_closed h hgate]

/-- The significand has 53 bits, with or without the hidden one. -/
theorem decompose_fst_lt (v : Word64) : (decompose v).1 < 2 ^ 53 := by
  by_cases h : exponentField v = 0
  · rw [decompose_of_exponentField_eq_zero h]
    exact (fractionField_lt v).trans (by decide)
  · exact (decompose_fst_bounds h).2

theorem binary64Value_lt (v : Word64) : binary64Value v < 2 ^ (53 + (decompose v).2) := by
  rw [zpow_add₀ two_ne_zero]
  exact mul_lt_mul_of_pos_right (mod_cast decompose_fst_lt v) (by positivity)

/-- Above the subnormal exponent the hidden bit bounds the value from below. -/
theorem le_binary64Value {v : Word64} (h : -128 ≤ (decompose v).2) : 2 ^ (52 + (decompose v).2) ≤ binary64Value v := by
  rw [zpow_add₀ two_ne_zero]
  exact mul_le_mul_of_nonneg_right (mod_cast (decompose_fst_bounds_of_exponent h).1) (by positivity)

/-- The gate of R100 closes at 2^73. -/
theorem expMax_lt_iff (v : Word64) : 20 < (decompose v).2 ↔ 2 ^ 73 ≤ binary64Value v := by
  constructor
  · intro he
    calc (2 ^ 73 : ℚ) = 2 ^ (73 : Int) := by norm_cast
      _ ≤ 2 ^ (52 + (decompose v).2) := zpow_le_zpow_right₀ one_le_two (by omega)
      _ ≤ binary64Value v := le_binary64Value (by omega)
  · intro hv
    by_contra he
    have hlt : binary64Value v < 2 ^ 73 :=
      calc binary64Value v < 2 ^ (53 + (decompose v).2) := binary64Value_lt v
        _ ≤ 2 ^ (73 : Int) := zpow_le_zpow_right₀ one_le_two (by omega)
        _ = 2 ^ 73 := by norm_cast
    exact hlt.not_ge hv

/-- Settles O31: the gate gives the rejection, and the normal range the threshold. -/
theorem dtoaDomainRejection : Obligations.DtoaDomainRejection :=
  ⟨fun _ _ hpasses hgate => exec_dtoa_of_gate_closed hpasses hgate, fun v _ => expMax_lt_iff v, by decide, by decide⟩

/-! ### Success (R114, R116, R117, R119) -/

/-- Settles O26: an accepted DTOA succeeds, and its commit records no fault. -/
theorem dtoaNeverFailsAnInternalCheck : Obligations.DtoaNeverFailsAnInternalCheck := by
  intro v fc haccepts
  obtain ⟨w, hw, -⟩ := dtoa_of_accepts haccepts
  refine ⟨⟨w, hw⟩, fun s t hv hexec => ?_⟩
  rw [exec_dtoa_of_success (by rw [hv, hw])] at hexec
  cases hexec
  rfl

/-- Settles O27: a committed result meets the invariant, which says it of the registers. -/
theorem dtoaResultIsTrimmedDigits : Obligations.DtoaResultIsTrimmedDigits := by
  intro s fc haccepts
  obtain ⟨w, hw, hresult⟩ := dtoa_of_accepts haccepts
  have hinv := commitWork_complete_inv s hresult haccepts.2.2
  refine ⟨_, exec_dtoa_of_success hw, rfl, fun i hi => ?_, hinv.terminator,
    fun hpos => ⟨hinv.noLeadingZero hpos, hinv.noTrailingZero hpos⟩⟩
  simpa [isDigit] using hinv.digits i hi

/-- Settles O30: behind the input check the gate decides OK, and an accepted DTOA ends with the rule for an empty
result. -/
theorem dtoaEmptyResultAndStableRejection : Obligations.DtoaEmptyResultAndStableRejection := by
  intro s fc hpasses
  by_cases hgate : 20 < (decompose s.v).2 ∨ 20 < fc
  · exact ⟨_, exec_dtoa_of_gate_closed hpasses hgate, by simp, by simpa using hgate⟩
  · have haccepts : dtoaAccepts s.v fc := ⟨hpasses, by omega, by omega⟩
    obtain ⟨w, hw, hresult⟩ := dtoa_of_accepts haccepts
    refine ⟨_, exec_dtoa_of_success hw, fun _ hlen => ?_, by simpa using hgate⟩
    have hnil : w.digits = [] := (commitWork_len_eq_zero_iff s hresult.length).1 hlen
    rw [State.complete_dp, commitWork_dp_toInt s (hresult.dp_bounds haccepts.2.2), hresult.empty hnil]

/-! ### The split of regime A (R103, R104) -/

/-- Settles O35: 2^64 ≤ v < 2^73 bounds the quotient. -/
theorem regimeASplitsBy10To17 : Obligations.RegimeASplitsBy10To17 := by
  intro f e hf hf' he he'
  have hsplit := splitRegimeA_eq f (e := e) (by omega)
  have hrem := splitRegimeA_snd_lt f (e := e) (by omega)
  have hvalue := scaled_bounds hf hf' (n := e.toNat) (lo := 12) (hi := 20) (by omega) (by omega)
  exact ⟨hsplit, hrem, by omega, by omega⟩

end Sys2Proof.Machine
end

section
/-! PROOFS. The order of the two trims (spec/42_digit_stages.md R135). -/

namespace Sys2Proof.Machine

/-- Every string of digits is a run of zeros with nothing after it, or with a digit after it that is no zero. -/
theorem zeros_then_rest (ds : List Byte) :
    ∃ n : Nat, ds = List.replicate n (ch 0) ∨ ∃ b es, b ≠ ch 0 ∧ ds = List.replicate n (ch 0) ++ b :: es := by
  induction ds with
  | nil => exact ⟨0, .inl rfl⟩
  | cons d ds ih =>
    by_cases hd : d = ch 0
    · obtain ⟨n, rfl | ⟨b, es, hb, rfl⟩⟩ := ih
      · exact ⟨n + 1, .inl (by rw [hd, List.replicate_succ])⟩
      · exact ⟨n + 1, .inr ⟨b, es, hb, by rw [hd, List.replicate_succ, List.cons_append]⟩⟩
    · exact ⟨0, .inr ⟨d, ds, hd, rfl⟩⟩

theorem dropTrailingZeros_replicate (n : Nat) : dropTrailingZeros (List.replicate n (ch 0)) = [] := by
  simp [dropTrailingZeros]

/-- A digit that is no zero keeps the trim of trailing zeros off what stands before it. -/
theorem dropTrailingZeros_append_cons (zs : List Byte) {b : Byte} (hb : b ≠ ch 0) (es : List Byte) :
    dropTrailingZeros (zs ++ b :: es) = zs ++ b :: dropTrailingZeros es := by
  have hkeep : ∀ rs : List Byte, (rs ++ b :: zs.reverse).dropWhile (· == ch 0) =
      rs.dropWhile (· == ch 0) ++ b :: zs.reverse := by
    intro rs
    rw [List.dropWhile_append]
    split
    · rename_i hnil
      rw [List.isEmpty_iff.1 hnil, List.dropWhile_cons_of_neg (by simpa using hb), List.nil_append]
    · rfl
  simp [dropTrailingZeros, hkeep]

theorem leadingZeros_replicate_append_cons (n : Nat) {b : Byte} (hb : b ≠ ch 0) (es : List Byte) :
    leadingZeros (List.replicate n (ch 0) ++ b :: es) = n := by
  simp [leadingZeros, hb]

/-- The zeros at the two ends are two runs, unless there is nothing else. -/
theorem trimZeros_eq_leadingFirst (w : Work) :
    (trimZeros w).digits = [] ∧ (trimZerosLeadingFirst w).digits = [] ∨ trimZeros w = trimZerosLeadingFirst w := by
  obtain ⟨n, hds | ⟨b, es, hb, hds⟩⟩ := zeros_then_rest w.digits
  · left
    simp [trimZeros, trimZerosLeadingFirst, hds, dropTrailingZeros_replicate]
  · right
    have hfront : dropTrailingZeros (b :: es) = b :: dropTrailingZeros es := dropTrailingZeros_append_cons [] hb es
    simp [trimZeros, trimZerosLeadingFirst, hds, dropTrailingZeros_append_cons _ hb,
      leadingZeros_replicate_append_cons n hb, hfront]

/-- Settles O41: the trims agree, or both leave nothing and the point is set by the rule for an empty result. -/
theorem trimOrderDoesNotShow : Obligations.TrimOrderDoesNotShow := by
  intro w fc
  rcases trimZeros_eq_leadingFirst w with ⟨hnil, hnil'⟩ | heq
  · rw [hnil, hnil', if_pos rfl, if_pos rfl]
    exact ⟨rfl, rfl⟩
  · rw [heq]
    exact ⟨rfl, rfl⟩

end Sys2Proof.Machine
end

section
/-! PROOFS. The values of the digit stages (spec/42_digit_stages.md R133, R134): trim keeps the value, and round-up
adds one unit in the last place. -/

namespace Sys2Proof.Machine

/-! ### TrimZeros keeps the value (R134) -/

theorem decimalNat_replicate_zero (n : Nat) : decimalNat (List.replicate n (ch 0)) = 0 := by
  induction n with
  | zero => rfl
  | succ n ih => rw [List.replicate_succ, decimalNat_cons, ih, digitOf_ch (by decide), zero_mul]

/-- The trim takes a run of zeros off each end. -/
theorem digits_eq_zeros_trimmed_zeros (w : Work) :
    ∃ n, w.digits = List.replicate (leadingZeros (dropTrailingZeros w.digits)) (ch 0) ++ (trimZeros w).digits ++
      List.replicate n (ch 0) := by
  have htrailing : w.digits.rtakeWhile (· == ch 0) =
      List.replicate (w.digits.rtakeWhile (· == ch 0)).length (ch 0) :=
    List.eq_replicate_length.2 fun b hb => by simpa using List.mem_rtakeWhile_imp hb
  have hleading : (dropTrailingZeros w.digits).takeWhile (· == ch 0) =
      List.replicate (leadingZeros (dropTrailingZeros w.digits)) (ch 0) :=
    List.eq_replicate_length.2 fun b hb => by simpa using List.mem_takeWhile_imp hb
  refine ⟨(w.digits.rtakeWhile (· == ch 0)).length, ?_⟩
  rw [trimZeros_digits, ← hleading, List.takeWhile_append_dropWhile, ← htrailing]
  exact List.rdropWhile_append_rtakeWhile.symm

theorem trimZeros_value (w : Work) : (trimZeros w).value = w.value := by
  obtain ⟨n, hn⟩ := digits_eq_zeros_trimmed_zeros w
  have hdp := trimZeros_dp w
  generalize leadingZeros (dropTrailingZeros w.digits) = z at hn hdp
  have hnat : decimalNat w.digits = decimalNat (trimZeros w).digits * 10 ^ n := by
    rw [hn, decimalNat_append, decimalNat_append, decimalNat_replicate_zero, decimalNat_replicate_zero,
      List.length_replicate, zero_mul, zero_add, add_zero]
  have hlen : w.digits.length = z + (trimZeros w).digits.length + n := by
    conv_lhs => rw [hn]
    simp only [List.length_append, List.length_replicate]
  have hexp : (trimZeros w).dp - ((trimZeros w).digits.length : Int) = n + (w.dp - (w.digits.length : Int)) := by
    omega
  rw [Work.value, Work.value, hnat, hexp, zpow_add₀ (by decide), zpow_natCast]
  push_cast
  ring

/-- An empty result has the value 0 wherever its point is. -/
theorem Work.value_of_nil {w : Work} (h : w.digits = []) : w.value = 0 := by
  rw [Work.value, h, decimalNat_nil, Nat.cast_zero, zero_mul]

theorem terminate_value {fc : Nat} {w t : Work} (h : terminate fc w = some t) : t.value = w.value := by
  simp only [terminate, Option.ite_none_right_eq_some, Option.some.injEq] at h
  obtain ⟨-, rfl⟩ := h
  rw [← trimZeros_value w]
  split
  · rename_i hnil
    rw [Work.value_of_nil (w := trimZeros w) hnil]
    exact Work.value_of_nil hnil
  · rfl

/-! ### RoundUp adds one unit in the last place (R133) -/

theorem digitOf_add_one {b : Byte} (h : isDigit b = true) (hne : b + 1 ≠ ch 10) : digitOf (b + 1) = digitOf b + 1 := by
  obtain ⟨d, hd, rfl⟩ := (isDigit_iff b).1 h
  rw [ch_add_one] at hne ⊢
  have : d ≠ 9 := by rintro rfl; exact hne rfl
  rw [digitOf_ch hd, digitOf_ch (by omega)]

theorem decimalNat_reverse_cons (b : Byte) (ds : List Byte) :
    decimalNat (b :: ds).reverse = 10 * decimalNat ds.reverse + digitOf b := by
  rw [List.reverse_cons, decimalNat_append, decimalNat_singleton, List.length_singleton, pow_one, mul_comm]

/-- The cascade adds 1 to the number. When it runs through the first digit, the digits lack the last zero. -/
theorem decimalNat_carryUp {ds : List Byte} (h : ∀ b ∈ ds, isDigit b = true) (hne : ds ≠ []) :
    (if (carryUp ds).2 then 10 else 1) * decimalNat (carryUp ds).1.reverse = decimalNat ds.reverse + 1 := by
  induction ds with
  | nil => exact absurd rfl hne
  | cons d ds ih =>
    rcases isDigit_add_one (h d List.mem_cons_self) with ⟨rfl, -⟩ | ⟨hd, -, -⟩
    · cases ds with
      | nil => decide
      | cons e ds =>
        have hrest := ih (fun b hb => h b (List.mem_cons_of_mem _ hb)) (List.cons_ne_nil e ds)
        rw [carryUp_nine_cons, decimalNat_reverse_cons, decimalNat_reverse_cons, digitOf_ch (by decide),
          digitOf_ch (by decide)]
        linarith
    · rw [carryUp_cons_of_ne ds hd]
      simp only [Bool.false_eq_true, if_false]
      rw [decimalNat_reverse_cons, decimalNat_reverse_cons, digitOf_add_one (h d List.mem_cons_self) hd]
      ring

theorem roundUp_value {w : Work} (h : w.allDigits) (hne : w.digits ≠ []) :
    (roundUp w).value = w.value + 10 ^ (w.dp - (w.digits.length : Int)) := by
  have hcarry := decimalNat_carryUp (ds := w.digits.reverse) (fun b hb => h b (List.mem_reverse.1 hb))
    (List.reverse_ne_nil_iff.2 hne)
  rw [List.reverse_reverse] at hcarry
  have hnat : ((if (carryUp w.digits.reverse).2 then 10 else 1 : Nat) : ℚ) *
      decimalNat (carryUp w.digits.reverse).1.reverse = decimalNat w.digits + 1 := mod_cast hcarry
  rw [Work.value, Work.value, roundUp_length h hne, ← add_one_mul, ← hnat, roundUp_of_ne_nil hne]
  cases (carryUp w.digits.reverse).2 with
  | false => simp
  | true =>
    simp only [if_true]
    rw [add_sub_right_comm, zpow_add_one₀ (by decide)]
    push_cast
    ring

/-- RoundUp of an empty buffer writes 1, which is one unit where the decimal point is at the start. -/
theorem roundUp_value_of_nil {w : Work} (h : w.digits = []) (hdp : w.dp = 0) :
    (roundUp w).value = w.value + 10 ^ (w.dp - (w.digits.length : Int)) := by
  rw [roundUp_of_nil h, Work.value_of_nil h, hdp, h]
  norm_num [Work.value, digitOf_ch]

end Sys2Proof.Machine
end

section
/-! PROOFS. The value of a DTOA result (spec/41_fixed_dtoa.md R118; spec/42_digit_stages.md R131): it is the input, rounded
half up to `fc` places. -/

namespace Sys2Proof.Machine

/-! ### Rounding to decimal places, halves up -/

/-- `y` is `x` rounded to `fc` decimal places, halves up. -/
def RoundsHalfUp (x : ℚ) (fc : Nat) (y : ℚ) : Prop := y * 10 ^ fc = (⌊x * 10 ^ fc + 1 / 2⌋ : ℚ)

section RoundsHalfUp
variable {x y : ℚ} {fc : Nat}

theorem RoundsHalfUp.of_bounds {n : ℤ} (hy : y * 10 ^ fc = n) (hlow : n ≤ x * 10 ^ fc + 1 / 2)
    (hhigh : x * 10 ^ fc + 1 / 2 < n + 1) : RoundsHalfUp x fc y := by
  rw [RoundsHalfUp, hy, Int.floor_eq_iff.2 ⟨hlow, hhigh⟩]

/-- A multiple of the unit is not rounded. -/
theorem RoundsHalfUp.refl_of_multiple {n : ℤ} (h : x * 10 ^ fc = n) : RoundsHalfUp x fc x :=
  .of_bounds h (by linarith) (by linarith)

/-- A number between two multiples of the unit goes up from the middle on. -/
theorem RoundsHalfUp.of_remainder {n : ℤ} {r : ℚ} (hx : x * 10 ^ fc = n + r) (h0 : 0 ≤ r) (h1 : r < 1)
    (hy : y * 10 ^ fc = n + if 1 ≤ 2 * r then 1 else 0) : RoundsHalfUp x fc y := by
  split at hy
  · exact .of_bounds (n := n + 1) (by push_cast; exact hy) (by push_cast; linarith) (by push_cast; linarith)
  · exact .of_bounds (n := n) (by linarith) (by linarith) (by linarith)

theorem RoundsHalfUp.abs_sub_le (h : RoundsHalfUp x fc y) : |y - x| ≤ 1 / 2 * 10 ^ (-(fc : Int)) := by
  have hpos : (0 : ℚ) < 10 ^ fc := by positivity
  have hlow := Int.floor_le (x * 10 ^ fc + 1 / 2)
  have hhigh := Int.lt_floor_add_one (x * 10 ^ fc + 1 / 2)
  rw [RoundsHalfUp] at h
  rw [← h] at hlow hhigh
  rw [zpow_neg, zpow_natCast, ← div_eq_mul_inv, le_div_iff₀ hpos, ← abs_of_pos hpos, ← abs_mul, sub_mul, abs_le]
  constructor <;> linarith

/-- The multiple of the unit that a number rounds to. -/
theorem RoundsHalfUp.eq_of_floor (h : RoundsHalfUp x fc y) {n : ℤ} (hn : ⌊x * 10 ^ fc + 1 / 2⌋ = n) :
    y = n * 10 ^ (-(fc : Int)) := by
  rw [RoundsHalfUp, hn] at h
  rw [zpow_neg, zpow_natCast, ← h, mul_inv_cancel_right₀ (by positivity)]

/-- A half goes up. -/
theorem RoundsHalfUp.eq_of_half (h : RoundsHalfUp x fc y) {n : ℤ} (hx : x = (n + 1 / 2) * 10 ^ (-(fc : Int))) :
    y = (n + 1) * 10 ^ (-(fc : Int)) := by
  have hscaled : x * 10 ^ fc + 1 / 2 = ((n + 1 : ℤ) : ℚ) := by
    rw [hx, zpow_neg, zpow_natCast, inv_mul_cancel_right₀ (by positivity)]
    push_cast
    ring
  rw [h.eq_of_floor (by rw [hscaled, Int.floor_intCast])]
  push_cast
  rfl

theorem RoundsHalfUp.eq_of_multiple (h : RoundsHalfUp x fc y) {n : ℤ} (hx : x = n * 10 ^ (-(fc : Int))) : y = x := by
  rw [hx]
  refine h.eq_of_floor ?_
  rw [hx, zpow_neg, zpow_natCast, inv_mul_cancel_right₀ (by positivity), Int.floor_eq_iff]
  constructor <;> linarith

end RoundsHalfUp

/-! ### FillFractionals rounds half up (R131) -/

/-- The value of digits of which the last `n` stand behind the decimal point. -/
theorem Work.value_mul_pow {w : Work} {n : Nat} (h : w.dp + n = w.digits.length) :
    w.value * 10 ^ n = decimalNat w.digits := by
  rw [Work.value, ← h, mul_assoc, ← zpow_natCast, ← zpow_add₀ (by decide),
    show w.dp - (w.dp + n) + (n : Int) = 0 by ring, zpow_zero, mul_one]

/-- A whole number of digits and the fraction, in units of the last digit a loop took. -/
theorem FractionDigits.value_mul_pow {n x point rest point' : Nat} {es : List Byte} {w : Work}
    (h : FractionDigits n x point es rest point') (hdp : w.dp = w.digits.length) :
    (w.value + (x : ℚ) / 2 ^ point) * 10 ^ es.length =
      decimalNat (w.digits ++ es) + (rest : ℚ) / 2 ^ point' := by
  have hvalue : (x : ℚ) * 5 ^ es.length = decimalNat es * 2 ^ point' + rest := mod_cast h.value
  have hwhole : w.value = decimalNat w.digits := by simpa using Work.value_mul_pow (n := 0) (by simpa using hdp)
  rw [hwhole, decimalNat_append, ← h.moved, pow_add, show (10 : ℚ) = 2 * 5 by norm_num, mul_pow]
  push_cast
  rw [show (10 : ℚ) = 2 * 5 by norm_num, mul_pow]
  field_simp
  linarith

/-- The digits of the loop, rounded by its remainder. -/
theorem roundedWork_value {w : Work} {es : List Byte} {rest point : Nat} (h : w.allDigits)
    (hes : ∀ b ∈ es, isDigit b = true) (hdp : w.dp = w.digits.length) :
    (roundedWork w es rest point).value * 10 ^ es.length =
      decimalNat (w.digits ++ es) + if 2 ^ point ≤ 2 * rest then 1 else 0 := by
  have happended : ({ w with digits := w.digits ++ es } : Work).value * 10 ^ es.length = decimalNat (w.digits ++ es) :=
    Work.value_mul_pow (by rw [List.length_append, hdp]; push_cast; rfl)
  have hunit : (10 : ℚ) ^ (w.dp - ((w.digits ++ es).length : Int)) * 10 ^ es.length = 1 := by
    rw [← zpow_natCast, ← zpow_add₀ (by decide), List.length_append, hdp]
    push_cast
    simp
  unfold roundedWork
  split
  · have hround : (roundUp { w with digits := w.digits ++ es }).value =
        ({ w with digits := w.digits ++ es } : Work).value + 10 ^ (w.dp - ((w.digits ++ es).length : Int)) := by
      rcases eq_or_ne (w.digits ++ es) [] with hnil | hne
      · refine roundUp_value_of_nil hnil ?_
        rw [hdp, (List.append_eq_nil_iff.1 hnil).1]
        rfl
      · exact roundUp_value (allDigits_append h hes) hne
    rw [hround, add_mul, happended, hunit]
  · rw [happended, add_zero]

/-- FillFractionals rounds: with all `fc` digits taken the remainder decides, and else nothing remains. -/
theorem FractionDigits.roundsHalfUp {fc x point rest point' : Nat} {es : List Byte} {w : Work}
    (h : FractionDigits fc x point es rest point') (hw : w.allDigits) (hdp : w.dp = w.digits.length) :
    RoundsHalfUp (w.value + (x : ℚ) / 2 ^ point) fc (roundedWork w es rest point').value := by
  have hexact := h.value_mul_pow hdp
  have hrounded := roundedWork_value (rest := rest) (point := point') hw h.digits hdp
  rcases h.ended with hfull | rfl
  · have hbelow : (rest : ℚ) < 2 ^ point' := mod_cast h.below
    have hhalf : 1 ≤ 2 * ((rest : ℚ) / 2 ^ point') ↔ 2 ^ point' ≤ 2 * rest := by
      rw [← mul_div_assoc, one_le_div₀ (by positivity)]
      norm_cast
    rw [hfull] at hexact hrounded
    refine .of_remainder (n := decimalNat (w.digits ++ es)) (r := (rest : ℚ) / 2 ^ point') (by exact_mod_cast hexact)
      (by positivity) ((div_lt_one (by positivity)).2 hbelow) ?_
    simp only [hrounded, hhalf, Int.cast_natCast]
  · rw [if_neg (by simp)] at hrounded
    have heq : (roundedWork w es 0 point').value = w.value + (x : ℚ) / 2 ^ point := by
      refine mul_right_cancel₀ (b := (10 : ℚ) ^ es.length) (by positivity) ?_
      rw [hexact, hrounded]
      simp
    obtain ⟨k, rfl⟩ := Nat.exists_eq_add_of_le h.count
    rw [heq]
    refine .refl_of_multiple (n := (decimalNat (w.digits ++ es) * 10 ^ k : Nat)) ?_
    rw [pow_add, ← mul_assoc, hexact]
    push_cast
    simp

/-- FillFractionals adds to the integer digits the fraction `frac × 2^e`, and rounds the sum. -/
theorem fillFractionals_roundsHalfUp {frac fc : Nat} {e : Int} {w w' : Work} (he : -128 ≤ e) (he0 : e ≤ 0)
    (hfrac : frac < 2 ^ (-e).toNat) (h53 : frac < 2 ^ 53) (hfc : fc ≤ 20) (hw : w.allDigits)
    (hlen : w.digits.length ≤ 16) (hdp : w.dp = w.digits.length) (h : fillFractionals frac e fc w = some w') :
    RoundsHalfUp (w.value + (frac : ℚ) * 2 ^ e) fc w'.value := by
  obtain ⟨x, point, es, rest, point', hx, hes, hfill⟩ := fillFractionals_eq (w := w) he he0 hfrac h53 hfc (by omega)
  obtain rfl := Option.some.inj (h.symm.trans hfill)
  have hfraction : (frac : ℚ) * 2 ^ e = (x : ℚ) / 2 ^ point := by
    have hx' : (x : ℚ) * 2 ^ (-e).toNat = frac * 2 ^ point := mod_cast hx
    obtain ⟨s, rfl⟩ : ∃ s : Nat, e = -(s : Int) := ⟨(-e).toNat, by omega⟩
    rw [neg_neg, Int.toNat_natCast] at hx'
    rw [zpow_neg, zpow_natCast, ← div_eq_mul_inv, div_eq_div_iff (by positivity) (by positivity), hx']
  rw [hfraction]
  exact hes.roundsHalfUp hw hdp

/-! ### The value a regime leaves (R103 to R108) -/

/-- What a second emitter appends multiplies the number before it. -/
theorem Emits.bind {o : Option Work} {g : Work → Option Work} {w : Work} {ds es : List Byte} {m n : Nat}
    (ho : Emits o w ds m)
    (hg : Emits (g { w with digits := w.digits ++ ds }) { w with digits := w.digits ++ ds } es n) :
    Emits (o.bind g) w (ds ++ es) (m * 10 ^ es.length + n) where
  appended := by rw [ho.appended, Option.bind_some, hg.appended, List.append_assoc]
  spells := ho.spells.append hg.spells

theorem Emits.pointAtEnd {o : Option Work} {ds : List Byte} {n : Nat} (h : Emits o Work.entry ds n) :
    o.map Work.pointAtEnd = some { digits := ds, dp := ds.length } := by
  rw [h.appended]
  rfl

theorem Spells.value_pointAtEnd {ds : List Byte} {n : Nat} (h : Spells ds n) :
    ({ digits := ds, dp := ds.length } : Work).value = n := by
  rw [← h.2]
  simp [Work.value]

/-- Regimes A and B emit the whole number `v`. -/
theorem Emits.value_pointAtEnd {o : Option Work} {ds : List Byte} {n : Nat} {w : Work} (h : Emits o Work.entry ds n)
    (hw : o.map Work.pointAtEnd = some w) : w.value = n := by
  rw [h.pointAtEnd] at hw
  rw [← Option.some.inj hw, h.spells.value_pointAtEnd]

theorem regimeA_value {f : Nat} {e : Int} {w : Work} (he : 0 ≤ e) (h : regimeA f e = some w) :
    w.value = (f * 2 ^ e.toNat : Nat) := by
  rw [splitRegimeA_eq f he]
  simp only [regimeA] at h
  generalize splitRegimeA f e = qr at h ⊢
  obtain ⟨q, r⟩ := qr
  obtain ⟨⟨hq, hr⟩, hw⟩ := Option.ite_none_right_eq_some.1 h
  have hshort := variableDigits_length_le 10 q
  have hfirst := fillDigits32_emits (w := Work.entry) hq (by decide)
  obtain ⟨es, hsecond, hes⟩ := fillDigits64FixedLength_emits
    (w := { Work.entry with digits := Work.entry.digits ++ (variableDigits 10 q).reverse }) hr
    (by simp [Work.entry]; omega)
  rw [(hfirst.bind hsecond).value_pointAtEnd hw, hes]

theorem regimeB_value {f : Nat} {e : Int} {w : Work} (hf' : f < 2 ^ 53) (he' : e ≤ 11) (h : regimeB f e = some w) :
    w.value = (f * 2 ^ e.toNat : Nat) := by
  have hn : f * 2 ^ e.toNat < 2 ^ 64 :=
    calc f * 2 ^ e.toNat ≤ f * 2 ^ 11 := Nat.mul_le_mul_left _ (Nat.pow_le_pow_right (by decide) (by omega))
      _ < 2 ^ 64 := by omega
  obtain ⟨ds, hds, -⟩ := fillDigits64_emits (w := Work.entry) hn (by decide)
  exact hds.value_pointAtEnd h

/-- A whole number is its own rounding. -/
theorem RoundsHalfUp.of_whole {f fc : Nat} {e : Int} {y : ℚ} (he : 0 ≤ e) (hy : y = (f * 2 ^ e.toNat : Nat)) :
    RoundsHalfUp ((f : ℚ) * 2 ^ e) fc y := by
  have hwhole : (f : ℚ) * 2 ^ e = y := by
    obtain ⟨n, rfl⟩ := Int.eq_ofNat_of_zero_le he
    rw [hy, Int.toNat_natCast, zpow_natCast]
    push_cast
    rfl
  rw [hwhole]
  refine .refl_of_multiple (n := (f * 2 ^ e.toNat * 10 ^ fc : Nat)) ?_
  rw [hy]
  push_cast
  rfl

theorem regimeC_roundsHalfUp {f fc : Nat} {e : Int} {w : Work} (hf' : f < 2 ^ 53) (he : -52 ≤ e) (he' : e ≤ -1)
    (hfc : fc ≤ 20) (h : regimeC f e fc = some w) : RoundsHalfUp ((f : ℚ) * 2 ^ e) fc w.value := by
  obtain ⟨s, rfl⟩ : ∃ s : Nat, e = -(s : Int) := ⟨(-e).toNat, by omega⟩
  have hpow : 2 ^ 1 ≤ 2 ^ s := Nat.pow_le_pow_right (by decide) (by omega)
  have hdiv := Nat.div_add_mod' f (2 ^ s)
  have hbelow : f / 2 ^ s < 2 ^ 52 := Nat.div_lt_of_lt_mul (by omega)
  have hfrac : f % 2 ^ s < 2 ^ s := Nat.mod_lt _ (by omega)
  have hle : f % 2 ^ s ≤ f := Nat.mod_le _ _
  have hmod : f - f / 2 ^ s * 2 ^ s = f % 2 ^ s := by omega
  obtain ⟨ds, hds, hhead⟩ := integerDigits_emits (n := f / 2 ^ s) (by omega)
  have hlen : ds.length ≤ 16 := length_le_of_decimalNat_lt hds.spells.1 hhead (by rw [hds.spells.2]; omega)
  simp only [regimeC, hds.pointAtEnd, Option.bind_some, neg_neg, Int.toNat_natCast, hmod] at h
  have hround := fillFractionals_roundsHalfUp (w := { digits := ds, dp := ds.length }) (by omega) (by omega)
    (by rwa [neg_neg, Int.toNat_natCast]) (by omega) hfc hds.spells.1 hlen rfl h
  have hsplit : (f : ℚ) * 2 ^ (-(s : Int)) = ((f / 2 ^ s : Nat) : ℚ) + ((f % 2 ^ s : Nat) : ℚ) * 2 ^ (-(s : Int)) := by
    have hcast : ((f / 2 ^ s : Nat) : ℚ) * 2 ^ s + ((f % 2 ^ s : Nat) : ℚ) = f := by exact_mod_cast hdiv
    rw [zpow_neg, zpow_natCast, ← hcast, add_mul, mul_inv_cancel_right₀ (by positivity)]
  rwa [hds.spells.value_pointAtEnd, ← hsplit] at hround

theorem regimeD_roundsHalfUp {f fc : Nat} {e : Int} {w : Work} (hf' : f < 2 ^ 53) (he : -128 ≤ e) (he' : e ≤ -53)
    (hfc : fc ≤ 20) (h : regimeD f e fc = some w) : RoundsHalfUp ((f : ℚ) * 2 ^ e) fc w.value := by
  have hfrac : f < 2 ^ (-e).toNat := hf'.trans_le (Nat.pow_le_pow_right (by decide) (by omega))
  have hround := fillFractionals_roundsHalfUp (w := Work.entry) he (by omega) hfrac hf' hfc
    (by simp [Work.entry, Work.allDigits]) (by decide) rfl h
  rwa [Work.value_of_nil rfl, zero_add] at hround

/-- Below 2^-76 every value rounds to 0 (R108). -/
theorem regimeE_roundsHalfUp {f fc : Nat} {e : Int} {w : Work} (hf' : f < 2 ^ 53) (he : e < -128) (hfc : fc ≤ 20)
    (h : regimeE fc = some w) : RoundsHalfUp ((f : ℚ) * 2 ^ e) fc w.value := by
  have hzero : w.value = 0 := by rw [← Option.some.inj h]; exact Work.value_of_nil rfl
  have hsmall : (f : ℚ) * 2 ^ e * 10 ^ fc < 1 / 2 :=
    calc (f : ℚ) * 2 ^ e * 10 ^ fc ≤ 2 ^ 53 * 2 ^ (-129 : Int) * 10 ^ 20 := by
          gcongr
          · exact_mod_cast hf'.le
          · exact one_le_two
          · omega
          · norm_num
      _ < 1 / 2 := by norm_num
  have hpos : 0 ≤ (f : ℚ) * 2 ^ e * 10 ^ fc := by positivity
  refine .of_bounds (n := 0) (by simp [hzero]) ?_ ?_ <;> push_cast <;> linarith

theorem runRegime_roundsHalfUp {f fc : Nat} {e : Int} {w : Work} (hf' : f < 2 ^ 53) (hfc : fc ≤ 20)
    (h : runRegime f e fc = some w) : RoundsHalfUp ((f : ℚ) * 2 ^ e) fc w.value := by
  have hcovers := selectRegime_covers e
  unfold runRegime at h
  cases hr : selectRegime e <;> rw [hr] at hcovers h <;> simp only [Regime.covers] at hcovers
  case a => exact .of_whole (by omega) (regimeA_value (by omega) h)
  case b => exact .of_whole hcovers.1 (regimeB_value hf' hcovers.2 h)
  case c => exact regimeC_roundsHalfUp hf' hcovers.1 hcovers.2 hfc h
  case d => exact regimeD_roundsHalfUp hf' hcovers.1 hcovers.2 hfc h
  case e => exact regimeE_roundsHalfUp hf' hcovers hfc h

/-! ### The committed value (R111, R118) -/

/-- The sum of R111 is the number the digits write, at the place of the last one. -/
theorem sum_digits_eq (ds : List Byte) (dp : Int) :
    ∑ i ∈ Finset.range ds.length, (digitOf (ds[i]?.getD 0x00#8) : ℚ) * 10 ^ (dp - 1 - (i : Int)) =
      decimalNat ds * 10 ^ (dp - (ds.length : Int)) := by
  induction ds generalizing dp with
  | nil => simp
  | cons b ds ih =>
    have hrest := ih (dp - 1)
    have hplace : ∀ i : Nat, dp - 1 - ((i + 1 : Nat) : Int) = dp - 1 - 1 - (i : Int) := fun i => by omega
    rw [List.length_cons, Finset.sum_range_succ']
    simp only [List.getElem?_cons_succ, List.getElem?_cons_zero, Option.getD_some, hplace]
    rw [hrest, decimalNat_cons, show dp - ((ds.length + 1 : Nat) : Int) = dp - 1 - (ds.length : Int) by omega,
      Nat.cast_zero, sub_zero]
    push_cast
    rw [add_mul, mul_assoc _ ((10 : ℚ) ^ ds.length), ← zpow_natCast, ← zpow_add₀ (by decide), add_sub_cancel, add_comm]

theorem commitWork_decimalValue {r : Regime} {fc : Nat} {w : Work} (s : State) (h : r.Result fc w) (hfc : fc ≤ 20) :
    (s.commitWork w).complete.decimalValue = w.value := by
  have hdp := commitWork_dp_toInt s (h.dp_bounds hfc)
  rw [Work.value, ← sum_digits_eq, State.decimalValue, State.complete_len, State.complete_dp,
    commitWork_len_toNat s h.length, hdp]
  refine Finset.sum_congr rfl fun i hi => ?_
  rw [complete_bufAt, commitWork_bufAt_of_le s h.length (Finset.mem_range.1 hi).le]

/-- Settles O29: the regime leaves the input rounded half up, and trim, termination and commit keep the value. -/
theorem dtoaRoundsToTheNearestDecimal : Obligations.DtoaRoundsToTheNearestDecimal := by
  intro s fc haccepts
  obtain ⟨w, hw, hleaves⟩ := runRegime_leaves decompose_fst_bounds_of_exponent haccepts.2.1 haccepts.2.2
  obtain ⟨t, ht, hresult⟩ := hleaves.terminate fc
  have hround : RoundsHalfUp (binary64Value s.v) fc (s.commitWork t).complete.decimalValue := by
    rw [commitWork_decimalValue s hresult haccepts.2.2, terminate_value ht]
    exact runRegime_roundsHalfUp (decompose_fst_lt s.v) haccepts.2.2 hw
  exact ⟨_, exec_dtoa_of_success (dtoa_of_terminated haccepts hw ht), rfl, hround.abs_sub_le,
    fun n => hround.eq_of_half, fun n => hround.eq_of_multiple⟩

end Sys2Proof.Machine
end

section
/-! PROOFS. The digit stages as the pipeline meets them (spec/42_digit_stages.md R122 to R134): the emitters, the
fractional loops, the rounded fraction, round-up and trim. -/

namespace Sys2Proof.Machine

/-! ### The emitters (R122 to R125) -/

/-- Settles O36: each emitter appends the digits it forms, and where it drops leading zeros none is left. -/
theorem emittersWriteTheirNumber : Obligations.EmittersWriteTheirNumber := by
  refine ⟨?fillDigits32, ?fixed32, ?fillDigits64, ?fixed64⟩
  case fillDigits32 =>
    intro n w hn room
    obtain ⟨happended, hdigits, hvalue⟩ := fillDigits32_emits hn room
    have hlen : (variableDigits 10 n).reverse.length ≤ 10 := by
      rw [List.length_reverse]
      exact variableDigits_length_le 10 n
    exact ⟨_, happended, hdigits, hvalue, head?_variableDigits_ne_zero hn, hlen⟩
  case fixed32 =>
    intro n width w hn room
    obtain ⟨happended, hdigits, hvalue⟩ := fillDigits32FixedLength_emits hn room
    exact ⟨_, happended, hdigits, hvalue, by rw [List.length_reverse, fixedDigits_length]⟩
  case fillDigits64 =>
    intro n w hn room
    obtain ⟨ds, ⟨happended, hdigits, hvalue⟩, hhead, hlen⟩ := fillDigits64_emits hn room
    exact ⟨ds, happended, hdigits, hvalue, hhead, hlen⟩
  case fixed64 =>
    intro n w hn room
    obtain ⟨ds, ⟨happended, hdigits, hvalue⟩, hlen⟩ := fillDigits64FixedLength_emits hn room
    exact ⟨ds, happended, hdigits, hvalue, hlen⟩

/-! ### The fractional loops (R128, R130) -/

/-- A fraction with eight bits of headroom fits wherever its binary point is. -/
theorem FitsLoop.of_headroom {W point x : Nat} (hx : x < 2 ^ point) (h : x < 2 ^ (W - 8)) : FitsLoop W point x where
  below := hx
  grown := h.trans_le (Nat.le_mul_of_pos_left _ (by positivity))

/-- What a loop appended moved the binary point by as many places, and by at most `n`. -/
theorem FractionDigits.point_bounds {n x point rest point' : Nat} {es : List Byte}
    (h : FractionDigits n x point es rest point') (w : Work) :
    (w.digits ++ es).length + point' = w.digits.length + point ∧ point ≤ point' + n := by
  have hmoved := h.moved
  have hcount := h.count
  rw [List.length_append]
  omega

/-- Settles O37: the fraction fits its loop at entry, and the loop only takes digits of it. -/
theorem fractionLoopsNeverFail : Obligations.FractionLoopsNeverFail := by
  refine ⟨?loop64, ?loop128⟩
  case loop64 =>
    intro fc frac point w hfrac hpoint hbelow room
    obtain ⟨es, rest, point', hloop, hdigits⟩ := fractionLoop64_digits (.of_headroom hbelow hfrac) hpoint room
    exact ⟨rest, point', _, hloop, hdigits.below, hdigits.point_bounds w⟩
  case loop128 =>
    intro fc x w hx _ room
    have hfit : FitsLoop 128 128 x.toNat := .of_headroom x.isLt (hx.trans (by decide))
    obtain ⟨es, rest, point', hloop, hdigits⟩ := fractionLoop128_digits hfit le_rfl room
    exact ⟨rest, point', _, hloop, hdigits.below, hdigits.point_bounds w⟩

/-! ### The rounded fraction, round-up and trim (R131 to R134) -/

/-- Settles O38: FillFractionals leaves the loop's digits, rounded by its remainder. -/
theorem fillFractionalsRoundsHalfUp : Obligations.FillFractionalsRoundsHalfUp := by
  intro frac e fc w he he0 hfrac h53 hfc hw hlen hdp
  obtain ⟨x, point, es, rest, point', -, hes, hfill⟩ := fillFractionals_eq (w := w) he he0 hfrac h53 hfc (by omega)
  exact ⟨_, hfill, roundedWork_allDigits hw hes.digits,
    fillFractionals_roundsHalfUp he he0 hfrac h53 hfc hw hlen hdp hfill⟩

/-- Settles O39: the cascade adds one unit to digits, and an empty buffer takes the special case. -/
theorem roundUpAddsOneUnit : Obligations.RoundUpAddsOneUnit :=
  ⟨fun _ h hne => ⟨roundUp_allDigits h, roundUp_length h hne, roundUp_value h hne⟩, fun _ h => roundUp_of_nil h⟩

/-- Settles O40: the trim takes only zeros at the two ends, and all of them. -/
theorem trimZerosKeepsTheValue : Obligations.TrimZerosKeepsTheValue := by
  intro w h
  obtain ⟨-, hfirst, hlast⟩ := trimZeros_trimmed h
  exact ⟨trimZeros_value w, hfirst, hlast⟩

end Sys2Proof.Machine
end

section
/-! PROOFS. Several instances (spec/60_exceptions.md R158): the number of an instance stands through every step, and a
step of one instance moves no other. -/

namespace Sys2Proof.Machine

/-! ### The number of an instance -/

@[simp] theorem hostRead_unitNo (r : Byte) (s : State) : (hostRead r s).unitNo = s.unitNo := by
  rcases hostRead_cases r s with ⟨-, h⟩ | ⟨_, -, h⟩ | ⟨_, _, -, -, -, h⟩ <;> rw [h]

@[simp] theorem hostWrite_unitNo (r : Byte) (d : Word64) (latency : Nat) (s : State) :
    (hostWrite r d latency s).unitNo = s.unitNo := by
  cases hi : s.inFlight with
  | some f => rw [hostWrite_of_busy r d latency hi, State.raiseFault_unitNo]
  | none =>
    cases hf : s.fault with
    | some c => rw [hostWrite_of_faulted r d latency hi hf]
    | none =>
      rcases hostWrite_cases r d latency hi hf with ⟨-, h⟩ | ⟨-, h⟩ | ⟨-, h⟩ | ⟨-, h⟩ | ⟨-, _, -, -, h⟩ | ⟨-, h⟩ |
        ⟨-, h⟩ <;> simp [h]

@[simp] theorem waitRead_unitNo (s : State) : (waitRead s).unitNo = s.unitNo := by
  obtain ⟨l, h⟩ := waitRead_eq s
  rw [h, State.setInputs_unitNo, hostRead_unitNo]

@[simp] theorem access_unitNo (x : Input) (s : State) : (x.access s).unitNo = s.unitNo := by
  cases x with
  | read r => exact hostRead_unitNo r s
  | write r d latency => exact hostWrite_unitNo r d latency s
  | wait => exact waitRead_unitNo s
  | reset | secondHost => rfl

theorem exec_unitNo {i : Instr} {s t : State} (h : exec i s = .next t) : t.unitNo = s.unitNo := by
  obtain ⟨-, -, -, hunit, -⟩ := exec_next_facts h
  exact hunit

theorem settle_unitNo {s t : State} (h : settle s = .next t) : t.unitNo = s.unitNo := by
  rcases settle_cases h with ⟨-, rfl⟩ | ⟨i, -, hexec⟩ | ⟨i, n, -, rfl⟩
  · rfl
  · exact exec_unitNo hexec
  · rfl

/-- A reset too keeps the number, which is no state of the unit. -/
theorem step_unitNo {s t : State} (h : step s = .next t) : t.unitNo = s.unitNo := by
  rcases step_cases h with ⟨rest, -, rfl⟩ | ⟨x, rest, hin, hx, -⟩ | ⟨-, -, rfl⟩ | ⟨f, -, -, hexec⟩
  · rfl
  · rw [step_of_access hin hx] at h
    exact (settle_unitNo h).trans (access_unitNo x (s.atAccess rest))
  · rfl
  · exact exec_unitNo (s := s.setReadData none) hexec

/-! ### Systems -/

/-- A step of an instance replaces its state in the system. -/
theorem System.stepUnit_of_step {sys : System} {n : Nat} {s t : State} (hs : sys[n]? = some s)
    (h : step s = .next t) : System.stepUnit n sys = .next (sys.set n t) := by
  simp only [System.stepUnit, hs, h]

theorem System.reset_getElem? {units n : Nat} (h : n < units) :
    (System.reset units)[n]? = some { State.reset with unitNo := n } := by
  rw [System.reset, List.getElem?_map, List.getElem?_range h, Option.map_some]

/-- Settles O60: a step replaces one entry of the list, and keeps its number. -/
theorem instancesAreIndependent : Obligations.InstancesAreIndependent := by
  refine ⟨fun sys n s t hs hstep => ?replaces, fun units n hn => System.reset_getElem? hn,
    fun s t hstep => step_unitNo hstep⟩
  obtain ⟨hn, -⟩ := List.getElem?_eq_some_iff.1 hs
  exact ⟨sys.set n t, System.stepUnit_of_step hs hstep, List.getElem?_set_self hn, List.length_set,
    fun m hm => List.getElem?_set_ne hm.symm⟩

end Sys2Proof.Machine
end

section
/-! PROOFS. The safe host pattern (spec/70_reset_and_hazards.md R166): a host that waits after every command goes on
waiting, and its accesses raise no BUSY_VIOLATION. -/

namespace Sys2Proof.Machine

/-! ### The pattern, as lists of inputs -/

theorem startsWithWait_iff {l : List Input} : startsWithWait l = true ↔ ∃ rest, l = .wait :: rest := by
  constructor
  · intro h
    cases l with
    | nil => cases h
    | cons x rest =>
      cases x with
      | wait => exact ⟨rest, rfl⟩
      | read | write | reset | secondHost => cases h
  · rintro ⟨rest, rfl⟩
    rfl

theorem waitsAfterCommands_write {r : Byte} {d : Word64} {latency : Nat} {rest : List Input} :
    waitsAfterCommands (.write r d latency :: rest) = true ↔
      (r = cmdNumber → startsWithWait rest = true) ∧ waitsAfterCommands rest = true := by
  rw [waitsAfterCommands, Bool.and_eq_true, Bool.or_eq_true, bne_iff_ne, ← imp_iff_not_or]

/-- What is left of the pattern after an input keeps to it. -/
theorem waitsAfterCommands_tail {x : Input} {rest : List Input} (h : waitsAfterCommands (x :: rest) = true) :
    waitsAfterCommands rest = true := by
  cases x with
  | write r d latency => exact (waitsAfterCommands_write.1 h).2
  | read | wait | reset | secondHost => exact h

/-- A waiting host whose unit is busy has a WAIT ahead. -/
theorem State.hostWaits.inputs_of_busy {s : State} (h : s.hostWaits) (hbusy : s.inFlight ≠ none) :
    ∃ rest, s.inputs = .wait :: rest := startsWithWait_iff.1 (h.2 hbusy)

theorem State.hostWaits_of_idle {s : State} (h : waitsAfterCommands s.inputs = true) (hi : s.inFlight = none) :
    s.hostWaits := ⟨h, fun hbusy => absurd hi hbusy⟩

/-! ### What an access and a completion do to the inputs -/

theorem hostWrite_inputs_of_idle {s : State} (r : Byte) (d : Word64) (latency : Nat) (hi : s.inFlight = none) :
    (hostWrite r d latency s).inputs = s.inputs := by
  cases hf : s.fault with
  | some c => rw [hostWrite_of_faulted r d latency hi hf]
  | none =>
    rcases hostWrite_cases r d latency hi hf with ⟨-, h⟩ | ⟨-, h⟩ | ⟨-, h⟩ | ⟨-, h⟩ | ⟨-, _, -, -, h⟩ | ⟨-, h⟩ |
      ⟨-, h⟩ <;> simp [h]

/-- An idle unit puts no input back: a WAIT ends there. -/
theorem access_inputs_of_idle {s : State} (x : Input) (hi : s.inFlight = none) : (x.access s).inputs = s.inputs := by
  cases x with
  | read r => exact hostRead_inputs r s
  | write r d latency => exact hostWrite_inputs_of_idle r d latency hi
  | wait => rw [Input.access, waitRead_of_idle hi]
  | reset | secondHost => rfl

theorem settle_inputs {s t : State} (h : settle s = .next t) : t.inputs = s.inputs := by
  rcases settle_cases h with ⟨-, rfl⟩ | ⟨i, -, hexec⟩ | ⟨i, n, -, rfl⟩
  · rfl
  · obtain ⟨-, hinputs, -⟩ := exec_next_facts hexec
    exact hinputs
  · rfl

/-- Settling starts no command. -/
theorem settle_inFlight_of_some {s t : State} {f : InFlight} (h : settle s = .next t) (hf : t.inFlight = some f) :
    s.inFlight = some f := by
  rcases settle_cases h with ⟨-, rfl⟩ | ⟨i, -, hexec⟩ | ⟨i, n, -, rfl⟩
  · exact hf
  · obtain ⟨hidle, -⟩ := exec_next_facts hexec
    cases hidle.symm.trans hf
  · exact hf

/-! ### The host goes on waiting -/

/-- While the unit is busy, the access is a WAIT, which stays ahead. -/
theorem step_hostWaits_of_busy {s t : State} (h : s.hostWaits) (hbusy : s.inFlight ≠ none) (hstep : step s = .next t) :
    t.hostWaits := by
  obtain ⟨rest, hin⟩ := h.inputs_of_busy hbusy
  obtain ⟨f, hf⟩ := Option.ne_none_iff_exists'.1 (mt (s.atAccess_inFlight_eq_none_iff rest).1 hbusy)
  rw [step_of_access hin rfl] at hstep
  have hkept : t.inputs = s.inputs :=
    calc t.inputs = (waitRead (s.atAccess rest)).inputs := settle_inputs hstep
      _ = .wait :: rest := by rw [waitRead_of_busy hf]; rfl
      _ = s.inputs := hin.symm
  rw [State.hostWaits, hkept]
  exact ⟨h.1, fun _ => h.2 hbusy⟩

/-- In an idle unit an access is taken off, and one that starts a command is a write to CMD, with a WAIT after it. -/
theorem step_hostWaits_of_access_idle {s t : State} {x : Input} {rest : List Input} (h : s.hostWaits)
    (hi : s.inFlight = none) (hin : s.inputs = x :: rest) (hx : x.isAccess = true) (hstep : step s = .next t) :
    t.hostWaits := by
  have hidle := (s.atAccess_inFlight_eq_none_iff rest).2 hi
  have hpattern : waitsAfterCommands (x :: rest) = true := hin ▸ h.1
  rw [step_of_access hin hx] at hstep
  have hrest : t.inputs = rest := (settle_inputs hstep).trans (access_inputs_of_idle x hidle)
  rw [State.hostWaits, hrest]
  refine ⟨waitsAfterCommands_tail hpattern, fun hstarted => ?_⟩
  obtain ⟨f, hf⟩ := Option.ne_none_iff_exists'.1 hstarted
  obtain ⟨-, d, rfl, -⟩ := access_starts hidle (settle_inFlight_of_some hstep hf)
  exact (waitsAfterCommands_write.1 hpattern).1 rfl

theorem step_hostWaits {s t : State} (h : s.hostWaits) (hstep : step s = .next t) : t.hostWaits := by
  by_cases hi : s.inFlight = none
  · rcases step_cases hstep with ⟨rest, hin, rfl⟩ | ⟨x, rest, hin, hx, -⟩ | ⟨-, -, rfl⟩ | ⟨f, -, hbusy, -⟩
    · exact State.hostWaits_of_idle (waitsAfterCommands_tail (x := .reset) (hin ▸ h.1)) rfl
    · exact step_hostWaits_of_access_idle h hi hin hx hstep
    · exact h
    · cases hi.symm.trans hbusy
  · exact step_hostWaits_of_busy h hi hstep

/-! ### No BUSY_VIOLATION -/

/-- The origin of a BUSY_VIOLATION is a write to a busy unit (R142), where a waiting host waits. -/
theorem step_fault_ne_busyViolation {s t : State} (h : s.hostWaits) (hstep : step s = .next t)
    (hne : s.fault ≠ some .busyViolation) : t.fault ≠ some .busyViolation := by
  intro hviolation
  cases hf : s.fault with
  | none =>
    obtain ⟨horigin, -⟩ := eachFaultHasItsOwnOrigin s t _ hf hstep hviolation
    obtain ⟨hbusy, r, d, latency, rest, hwrite⟩ := horigin rfl
    obtain ⟨rest', hwait⟩ := h.inputs_of_busy hbusy
    cases hwait.symm.trans hwrite
  | some c =>
    rcases firstFaultIsKeptUntilReset s t c hf hstep with hkept | ⟨rest, hreset⟩
    · exact hne (hf.trans (hkept.symm.trans hviolation))
    · rw [step_of_input hreset] at hstep
      cases hstep
      cases hviolation

/-- Settles O57: the pattern is kept by each step, and the fault has no other origin. -/
theorem waitingHostNeverViolatesBusy : Obligations.WaitingHostNeverViolatesBusy :=
  fun _ _ hwaits hstep => ⟨step_hostWaits hwaits hstep, step_fault_ne_busyViolation hwaits hstep⟩

end Sys2Proof.Machine
end
